-- ==== Sys2Proof/Word.lean ====
section
/-!
DEFINITION. The plain data every other file uses: bytes, times, and a list of fixed length.
-/

namespace Sys2Proof

/-- One byte on the wire. -/
abbrev Byte := BitVec 8

/-- A value of the 32-bit millisecond count (R194). -/
abbrev Time := BitVec 32

/-- A fixed number of like things: a list that carries its length, so that an index below the
length always names an element. -/
structure Vec (α : Type) (n : Nat) where
  toList : List α
  len : toList.length = n
deriving DecidableEq, Repr

/-- The element at an index. -/
def Vec.get {α : Type} {n : Nat} (v : Vec α n) (i : Fin n) : α :=
  v.toList.get ⟨i.val, by rw [v.len]; exact i.isLt⟩

/-- The vector with one element replaced. -/
def Vec.set {α : Type} {n : Nat} (v : Vec α n) (i : Fin n) (x : α) : Vec α n :=
  ⟨v.toList.set i.val x, by rw [List.length_set, v.len]⟩

/-- The vector with one element changed by a function. -/
def Vec.modify {α : Type} {n : Nat} (v : Vec α n) (i : Fin n) (f : α → α) : Vec α n :=
  v.set i (f (v.get i))

/-- Every element changed by a function. -/
def Vec.map {α β : Type} {n : Nat} (v : Vec α n) (f : α → β) : Vec β n :=
  ⟨v.toList.map f, by rw [List.length_map, v.len]⟩

/-- The same element everywhere. -/
def Vec.fill {α : Type} (n : Nat) (x : α) : Vec α n :=
  ⟨List.replicate n x, List.length_replicate⟩

end Sys2Proof
end

