-- ==== Sys2Proof/Syntax.lean ====
section
/-!
DEFINITION. The commands of the K41: one constructor per row of spec/opcode_table.json, with the row's
operands. A frame or request row carries the port it arrives on and its header and payload fields at
wire width, so that every code a wire can carry can be written (log 1).
-/

namespace Sys2Proof

/-- The two ABL ports (R1). -/
inductive PortId where
  | a
  | b
deriving DecidableEq, Repr

/-- Where a frame arrives and the header fields beside KIND and LEN (R1). -/
structure FrameHead where
  port : PortId
  dest : Byte
  src : Byte
  seq : Byte
deriving DecidableEq, Repr

/-- The header fields of a MGMT_REQUEST and its request head after the code (R190). -/
structure ReqHead where
  port : PortId
  dest : Byte
  src : Byte
  seq : Byte
  tag : BitVec 16
  scopeKind : Byte
  scopeNumber : Byte
deriving DecidableEq, Repr

/-- One sample of an AXLE_SPEED frame (R190). -/
structure SpeedSample where
  axle : Byte
  speed : BitVec 16
  quality : Byte
deriving DecidableEq, Repr

/-- The commands of the table. -/
inductive Instr where
  /-- POWER_ON_RESET (R193), with the levels on the position and address-base straps at release. -/
  | powerOnReset (pos : BitVec 2) (adr : BitVec 5)
  /-- FRAME_ARRIVAL (R4), with every byte received between two delimiters. -/
  | frameArrival (port : PortId) (bytes : List Byte)
  /-- DEMAND (R35). -/
  | demand (h : FrameHead) (service independent : BitVec 16) (flags : Byte)
  /-- AXLE_SPEED (R29). -/
  | axleSpeed (h : FrameHead) (samples : List SpeedSample)
  /-- GROUND_SPEED (R54). -/
  | groundSpeed (h : FrameHead) (speed : BitVec 16) (quality : Byte)
  /-- EFFORT_REPORT (R96). -/
  | effortReport (h : FrameHead) (axle : Byte) (effort : BitVec 16) (status : Byte)
  /-- PRESSURE_REPORT (R88). -/
  | pressureReport (h : FrameHead) (bogie : Byte) (pressure : BitVec 16) (status : Byte)
  /-- TRANSMISSION_COMPLETE (R10). -/
  | transmissionComplete (port : PortId)
  /-- SILENCE_TIMER_EXPIRY (R13). -/
  | silenceTimerExpiry (port : PortId)
  /-- STATION_FRESHNESS_EXPIRY (R27), of the entry with this address. -/
  | stationFreshnessExpiry (address : Byte)
  /-- STATION_CONCEAL_EXPIRY (R27). -/
  | stationConcealExpiry (address : Byte)
  /-- AXLE_FRESHNESS_EXPIRY (R29), of this global axle. -/
  | axleFreshnessExpiry (axle : Fin 12)
  /-- AXLE_CONCEAL_EXPIRY (R29). -/
  | axleConcealExpiry (axle : Fin 12)
  /-- RELEASE_CONFIRM_EXPIRY (R46). -/
  | releaseConfirmExpiry
  /-- REFERENCE_LOST_EXPIRY (R57). -/
  | referenceLostExpiry
  /-- ALLOWANCE_TIMER_EXPIRY (R66), of this own axle. -/
  | allowanceTimerExpiry (axle : Fin 3)
  /-- DUMP_TIMER_EXPIRY (R81). -/
  | dumpTimerExpiry
  /-- HOLD_TIMER_EXPIRY (R82). -/
  | holdTimerExpiry
  /-- STEP_TIMER_EXPIRY (R83). -/
  | stepTimerExpiry
  /-- MISMATCH_TIMER_EXPIRY (R90). -/
  | mismatchTimerExpiry
  /-- HANDOVER_TIMER_EXPIRY (R108). -/
  | handoverTimerExpiry
  /-- REFRESH_TIMER_EXPIRY (R112): outputs 0..2 are the axle efforts, 3 the bogie pressure. -/
  | refreshTimerExpiry (output : Fin 4)
  /-- CLAIM_HEADER_WRITE_COMPLETE (R160), of this slot. -/
  | claimHeaderWriteComplete (slot : Fin 16)
  /-- COMMIT_ERASE_COMPLETE (R160). -/
  | commitEraseComplete
  /-- RECORD_CELL_WRITE_COMPLETE (R160). -/
  | recordCellWriteComplete
  /-- COMMIT_HEADER_WRITE_COMPLETE (R161). -/
  | commitHeaderWriteComplete
  /-- PROTECT_HEADER_WRITE_COMPLETE (R166), of this slot. -/
  | protectHeaderWriteComplete (slot : Fin 16)
  /-- ERASE_COMPLETE (R167), of this slot. -/
  | eraseComplete (slot : Fin 16)
  /-- SCAN_OPERATION_COMPLETE (R173). -/
  | scanOperationComplete
  /-- IDENTIFY (R180). -/
  | identify (h : ReqHead)
  /-- READ_STATUS (R181). -/
  | readStatus (h : ReqHead) (page : Byte)
  /-- SET_MODE (R50). -/
  | setMode (h : ReqHead) (target : Byte)
  /-- SET_NOTICE (R183). -/
  | setNotice (h : ReqHead) (address enables : Byte)
  /-- RESTART (R187). -/
  | restart (h : ReqHead)
  /-- SET_PORT (R15). -/
  | setPort (h : ReqHead) (port threshold clear : Byte)
  /-- READ_PORT (R16). -/
  | readPort (h : ReqHead) (port : Byte)
  /-- SET_STATION (R20). -/
  | setStation (h : ReqHead) (address role side count b0 b1 b2 b3 : Byte) (fresh conceal : BitVec 16)
  /-- CLEAR_STATION (R21). -/
  | clearStation (h : ReqHead) (address : Byte)
  /-- READ_STATION (R21). -/
  | readStation (h : ReqHead) (address : Byte)
  /-- SET_MATCH (R33). -/
  | setMatch (h : ReqHead) (entry enable kind source offset value mask : Byte)
  /-- READ_AXLE (R74). -/
  | readAxle (h : ReqHead)
  /-- RESTORE_AXLE (R73). -/
  | restoreAxle (h : ReqHead)
  /-- READ_BOGIE (R116). -/
  | readBogie (h : ReqHead) (part : Byte)
  /-- SET_RESTRICTION (R130). -/
  | setRestriction (h : ReqHead) (entry select enable invert priority path : Byte) (action : BitVec 16)
      (trigger edge force : Byte)
  /-- READ_RESTRICTIONS (R134). -/
  | readRestrictions (h : ReqHead) (start : Byte)
  /-- ACK_RESTRICTIONS (R125). -/
  | ackRestrictions (h : ReqHead) (mask : BitVec 32)
  /-- SET_LIMITER (R129). -/
  | setLimiter (h : ReqHead) (path value : Byte)
  /-- LOAD_SEGMENT (R142): table and segment in one byte, then the segment's contents. -/
  | loadSegment (h : ReqHead) (selector : Byte) (contents : List Byte)
  /-- ADOPT (R145). -/
  | adopt (h : ReqHead)
  /-- DISCARD_STAGED (R150). -/
  | discardStaged (h : ReqHead)
  /-- SET_RECORDER (R172). -/
  | setRecorder (h : ReqHead) (pre post : BitVec 16) (policy sliding : Byte)
  /-- READ_INCIDENTS (R170). -/
  | readIncidents (h : ReqHead) (start : Byte)
  /-- SET_CURSOR (R168). -/
  | setCursor (h : ReqHead) (slot : Byte) (index : BitVec 16)
  /-- READ_RECORDS (R169). -/
  | readRecords (h : ReqHead)
  /-- PROTECT (R166). -/
  | protect (h : ReqHead) (slot : Byte)
  /-- UNPROTECT (R166). -/
  | unprotect (h : ReqHead) (slot : Byte)
  /-- ERASE_INCIDENT (R167). -/
  | eraseIncident (h : ReqHead) (slot : Byte)
  /-- TRIGGER (R171). -/
  | trigger (h : ReqHead) (subject : Byte) (mark : List Byte)
  /-- UNKNOWN_REQUEST_CODE (R177): a request of a code R191 does not list. -/
  | unknownRequestCode (h : ReqHead) (code : Byte) (params : List Byte)
  /-- ERASE_HEADER_WRITE_COMPLETE (R167), of this slot. -/
  | eraseHeaderWriteComplete (slot : Fin 16)
deriving DecidableEq, Repr

end Sys2Proof
end

