-- ==== Sys2Proof/Config.lean ====
section
/-!
DEFINITION. What a K41 fixes once and the values its manual leaves open. A value the manual leaves
open is a constant with no body: nothing can prove what it is (logs 3, 9 to 12).
-/

namespace Sys2Proof.Config

/-! ### Numbers of the manual (section 0.7) -/

/-- Places of a FORWARD queue (R6); the last is kept for replies. -/
def forwardPlaces : Nat := 16

/-- Entries of the station table (R19). -/
def stationEntries : Nat := 32

/-- Records of the history ring (R152). -/
def ringRecords : Nat := 512

/-- Record cells of a slot (R154). -/
def slotCells : Nat := 384

/-- Places of the trigger queue (R163). -/
def triggerPlaces : Nat := 4

/-- The brake-group broadcast address (section 0.5). -/
def broadcast : Nat := 127

/-- Byte times of 5 microseconds in one millisecond (R3). -/
def ticksPerMs : Nat := 200

/-- V_min while no SUPERVISION table is active (R41). -/
def vMinDefault : Nat := 10

/-- A_fall while no SUPERVISION table is active (R56). -/
def aFallDefault : Nat := 200

/-- The revision number of the devices the manual describes (R180). -/
def revision : Nat := 1

/-! ### Free values -/

/-- FREE: the code of the family ILKAVO in the IDENTIFY reply; R180 names no value (log 12). -/
opaque familyCode : Byte

/-- FREE: the code of the part K41 in the IDENTIFY reply; R180 names no value (log 12). -/
opaque partCode : Byte

/-- FREE: how long the n-th NV operation takes, before its bound is applied (R160, R167; log 9). -/
opaque nvDuration : Nat → Nat

/-- FREE: whether power-on reset, interrupting the n-th NV operation when that is an erase, finds a cell
already blank (R165, "wholly or partly erased"; log 10). -/
opaque erasedSoFar : Nat → Nat → Bool

/-- FREE: the bytes READ_RECORDS returns for a cell that holds no record; the manual states none
(arguments: slot, cell, byte; log 11). -/
opaque blankCellByte : Nat → Nat → Nat → Byte

/-- FREE: where in the order of events due at one tick the next one falls (log 3). -/
opaque eventPlace : Nat → Nat

/-! ### Bounds of the free values -/

/-- Longest NV write, 2 ms, in byte times (R160). -/
def writeMax : Nat := 400

/-- Longest NV erase, 80 ms, in byte times (R160, R167). -/
def eraseMax : Nat := 16000

end Sys2Proof.Config
end

