-- ==== Sys2Proof/Machine/State.lean ====
section
/-!
DEFINITION. The state of the K41 as plain data, block by block as the manual owns it (section 0.3), the
reasons a step can stop, and the state after power-on reset of a device as delivered.
-/

namespace Sys2Proof.Machine

/-- Why a step stops with a fault: never. The manual gives the device no event that stops it: what it
cannot take it counts, refuses or discards, and goes on (log 30; safe). -/
inductive Fault where
deriving DecidableEq, Repr

/-- Why a command has no meaning here. -/
inductive Refusal where
  /-- Raised only by an arm of Dispatch.lean for a command this model does not hold; safe. -/
  | notModelled (mnemonic : String)
deriving DecidableEq, Repr

/-! ### Timers -/

/-- A running timer: the time it was set at and its length in ms. Its expiry is the instant at which the
time since its start reaches the length (R194: every comparison of times is a difference). -/
structure Timer where
  start : Time
  len : Nat
deriving DecidableEq, Repr

/-! ### Clock and identity -/

/-- The time base (R194) with the model's own byte-time count inside the millisecond. -/
structure Clock where
  time : Time
  sub : Nat
  draws : Nat
deriving DecidableEq, Repr

/-- The strap pins and what was sampled from them (R193). -/
structure Ident where
  posPins : BitVec 2
  adrPins : BitVec 5
  position : Fin 4
  base : Nat
deriving DecidableEq, Repr

/-! ### Link (chapter 1) -/

/-- A frame as it is on the wire (R190); LEN is the payload's length. -/
structure Frame where
  kind : Byte
  dest : Byte
  src : Byte
  seq : Byte
  payload : List Byte
  crc : BitVec 16
deriving DecidableEq, Repr

/-- A frame the device originates, before its SEQ and CRC are stamped (R1, R11). -/
structure Orig where
  kind : Byte
  dest : Byte
  payload : List Byte
deriving DecidableEq, Repr

/-- One place of a FORWARD queue (R6). -/
inductive Queued where
  | forwarded (f : Frame)
  | originated (o : Orig)
deriving DecidableEq, Repr

/-- One place of a COMMAND queue: a command and its target, 0..2 the axle outputs, 3 the pressure (R8). -/
structure Command where
  target : Fin 4
  frame : Orig
deriving DecidableEq, Repr

/-- A transmission in progress (R3): the frame and the byte times left. -/
structure Transmission where
  frame : Frame
  left : Nat
deriving DecidableEq, Repr

/-- One port (R17), with the unknown-source count the classifier keeps for it (R24). -/
structure Port where
  command : List Command
  forward : List Queued
  threshold : Nat
  fairness : Nat
  tx : Option Transmission
  crcRejects : Nat
  lengthRejects : Nat
  forwardDrops : Nat
  framesSent : Nat
  unknownSources : Nat
  lastArrival : Time
  silenceTimer : Option Timer
  silent : Bool
deriving DecidableEq, Repr

/-- The two ports and the SEQ counter (R11). -/
structure Link where
  a : Port
  b : Port
  seq : BitVec 8
deriving DecidableEq, Repr

/-! ### Classifier (chapter 2) -/

/-- Roles of a station (R19), in the order of their codes (R191). -/
inductive Role where
  | cab
  | axleUnit
  | radar
  | converter
  | valve
  | peer
deriving DecidableEq, Repr

/-- Freshness of a station entry (R27). -/
inductive StationState where
  | new
  | fresh
  | late
  | stale
deriving DecidableEq, Repr

/-- A converter's reported status (R19, R190). -/
inductive ConverterStatus where
  | ok
  | derated
  | fault
deriving DecidableEq, Repr

/-- A station entry (R19). -/
structure Station where
  address : Byte
  role : Role
  side : PortId
  bound : List Nat
  freshLimit : Nat
  concealLimit : Nat
  lastSeq : Option Byte
  lastAccept : Time
  state : StationState
  lastStatus : ConverterStatus
  gapCount : Nat
  staleCount : Nat
  rejectCount : Nat
  freshTimer : Option Timer
  concealTimer : Option Timer
deriving DecidableEq, Repr

/-- Freshness of an axle sample (R29). -/
inductive SampleState where
  | fresh
  | late
  | stale
deriving DecidableEq, Repr

/-- What the classifier keeps for one global axle (R29). -/
structure AxleSample where
  state : SampleState
  lastGood : Nat
  doubtful : Nat
  freshTimer : Option Timer
  concealTimer : Option Timer
deriving DecidableEq, Repr

/-- A frame match entry (R32). -/
structure MatchEntry where
  enable : Bool
  kind : Byte
  source : Byte
  offset : Nat
  value : Byte
  mask : Byte
deriving DecidableEq, Repr

/-- The classifier (R34). -/
structure Classifier where
  stations : List Station
  samples : Vec AxleSample 12
  radarDoubtful : Nat
  matchers : Vec MatchEntry 4
deriving DecidableEq, Repr

/-! ### Demand unit (chapter 3) -/

/-- Hold status (R37). -/
inductive Hold where
  | none
  | startHold
  | held
  | penalty
deriving DecidableEq, Repr

/-- Application state (R44). -/
inductive AppState where
  | released
  | applied
  | releasing
deriving DecidableEq, Repr

/-- Operating mode (R49). -/
inductive Mode where
  | transparent
  | active
  | isolated
deriving DecidableEq, Repr

/-- The demand unit (R53). -/
structure Demand where
  lLast : Nat
  iLast : Nat
  hold : Hold
  emergency : Bool
  app : AppState
  appNumber : BitVec 32
  releaseTimer : Option Timer
  mode : Mode
deriving DecidableEq, Repr

/-! ### Speed and slide unit (chapter 4) -/

/-- Slide state of an axle (R61). -/
inductive SlideState where
  | clear
  | suspect
  | sliding
  | recovering
  | isolated
  | unsensed
deriving DecidableEq, Repr

/-- The slide record of an own axle with its allowance timer (R61). -/
structure SlideRecord where
  state : SlideState
  factor : Nat
  suspect : Nat
  episodeTime : Nat
  periodStart : Time
  episodes : Nat
  lastSlip : Nat
  lastCreep : Nat
  allowance : Option Timer
deriving DecidableEq, Repr

/-- The reference speed and the slide records (R76). -/
structure Slide where
  vref : Nat
  acc : Nat
  lastUpdate : Time
  radarSpeed : Nat
  refTimer : Option Timer
  refLost : Bool
  lastSpeedRecord : Time
  axles : Vec SlideRecord 3
deriving DecidableEq, Repr

/-! ### Air sequencer and cylinder supervision (chapter 5) -/

/-- Sequencer state (R77). -/
inductive AirState where
  | normal
  | dump
  | hold
  | reapply
deriving DecidableEq, Repr

/-- The valve's last status (R88). -/
inductive ValveStatus where
  | ok
  | fault
deriving DecidableEq, Repr

/-- The air sequencer and cylinder supervision (R92). -/
structure Air where
  state : AirState
  exhausted : Bool
  used : Nat
  dumpStart : Time
  held : Nat
  reapply : Nat
  pSet : Nat
  dumpTimer : Option Timer
  holdTimer : Option Timer
  stepTimer : Option Timer
  measured : Nat
  status : ValveStatus
  mismatchTimer : Option Timer
  mismatch : Bool
deriving DecidableEq, Repr

/-! ### Blend engine (chapter 6) -/

/-- Content of an effort command for the comparisons of R111: effort and SLIDE flag (R110). -/
structure EffortContent where
  effort : Nat
  slide : Bool
deriving DecidableEq, Repr

/-- Content of a pressure command: pressure, phase and EMERGENCY flag (R110). The phase is the sequencer
state it comes from: APPLY from NORMAL, the others by their own names (R77). -/
structure PressureContent where
  pressure : Nat
  phase : AirState
  emergency : Bool
deriving DecidableEq, Repr

/-- The blend engine's state of one own axle and its output (R118). -/
structure AxleOut where
  achieved : Nat
  status : ConverterStatus
  content : EffortContent
  pendingEffort : Option Nat
  start : Nat
  lastSent : Option EffortContent
  refresh : Option Timer
deriving DecidableEq, Repr

/-- The pressure output (R118). -/
structure PressureOut where
  content : PressureContent
  lastSent : Option PressureContent
  refresh : Option Timer
deriving DecidableEq, Repr

/-- Per-axle working values of an evaluation (R99 to R101). -/
structure AxleWork where
  inService : Bool
  capability : Nat
  allotment : Nat
  target : Nat
  short : Nat
deriving DecidableEq, Repr

/-- The working values of the last evaluation (R116). `ra` is none where no AIR restriction governs. -/
structure BlendWork where
  level : Nat
  independent : Nat
  emergency : Bool
  hold : Hold
  vref : Nat
  re : Nat
  ra : Option Nat
  fDem : Nat
  c : Nat
  d : Nat
  axles : Vec AxleWork 3
  sumU : Nat
  fAir : Nat
  pAuto : Nat
  pInd : Nat
  pSet : Nat
deriving DecidableEq, Repr

/-- The outputs an evaluation leaves for the BLEND test of the next (R115). -/
structure PrevOut where
  efforts : Vec Nat 3
  pOut : Nat
deriving DecidableEq, Repr

/-- The blend engine (R118). -/
structure Blend where
  axles : Vec AxleOut 3
  pressure : PressureOut
  handover : Option Timer
  fPrev : Nat
  work : BlendWork
  prev : Option PrevOut
deriving DecidableEq, Repr

/-! ### Restriction table and arbiter (chapter 7) -/

/-- Path of a restriction entry (R119), in the order of the codes (R191). -/
inductive Path where
  | electric
  | air
  | report
deriving DecidableEq, Repr

/-- Notice edge of a restriction entry (R119), in the order of the codes (R191). -/
inductive NoticeEdge where
  | none
  | raise
  | clear
  | both
deriving DecidableEq, Repr

/-- A restriction entry (R119). -/
structure Entry where
  enable : Bool
  invert : Bool
  priority : Nat
  path : Path
  action : Nat
  trigger : Bool
  edge : NoticeEdge
  force : Bool
  condition : Bool
  pending : Bool
  latched : Bool
deriving DecidableEq, Repr

/-- The restriction table and arbiter; entry number k stands at index k - 1 (R119, R126). -/
structure Restrict where
  entries : Vec Entry 20
  limElectric : Nat
  limAir : Nat
  govElectric : Nat
  govAir : Nat
deriving DecidableEq, Repr

/-! ### Table banks (chapter 8) -/

/-- The four tables, in the order of their codes (R191). -/
inductive TableId where
  | curve
  | bogie
  | bands
  | supervision
deriving DecidableEq, Repr

/-- Load state of a staged table (R141). -/
inductive LoadState where
  | untouched
  | loading
  | loaded
  | incomplete
deriving DecidableEq, Repr

/-- A point of the CURVE table (R138). -/
structure CurvePoint where
  speed : Nat
  cap : Nat
deriving DecidableEq, Repr

/-- The CURVE table (R138). -/
structure Curve where
  count : Nat
  points : Vec CurvePoint 16
deriving DecidableEq, Repr

/-- The BOGIE table (R139). -/
structure BogieTable where
  n : Nat
  fFull : Nat
  gAir : Nat
  pBase : Nat
  pMax : Nat
  pEmerg : Nat
  pIndepFull : Nat
  reapplyStep : Nat
  tShort : Nat
  radarUse : Bool
deriving DecidableEq, Repr

/-- A band of the BANDS table (R138). -/
structure Band where
  bound : Nat
  creepOn : Nat
  slipOn : Nat
  creepOff : Nat
  confirm : Nat
  cut : Nat
  restore : Nat
deriving DecidableEq, Repr

/-- The SUPERVISION table (R140). -/
structure Supervision where
  handoverScale : Nat
  handoverCount : Nat
  slideScale : Nat
  slideCount : Nat
  tSlideMax : Nat
  dumpBudget : Nat
  tRefLost : Nat
  aFall : Nat
  vMin : Nat
  tRefresh : Nat
  tMismatch : Nat
  tolerance : Nat
  tPortSilent : Nat
  speedInterval : Nat
  releaseThreshold : Nat
  releaseConfirm : Nat
deriving DecidableEq, Repr

/-- One bank of four tables (R136). -/
structure Tables where
  curve : Curve
  bogie : BogieTable
  bands : Vec Band 8
  supervision : Supervision
deriving DecidableEq, Repr

/-- Load states of the four staged tables (R141). -/
structure LoadStates where
  curve : LoadState
  bogie : LoadState
  bands : LoadState
  supervision : LoadState
deriving DecidableEq, Repr

/-- The table banks (R151). The active bank is empty or full (R136). -/
structure Banks where
  active : Option Tables
  staged : Tables
  states : LoadStates
  openLoad : Option TableId
  pendingAdoption : Bool
  adoptions : Nat
deriving DecidableEq, Repr

/-! ### History ring and incident recorder (chapter 9) -/

/-- Record kinds (R153), in the order of their codes from 1 (section 11.4). -/
inductive RecordKind where
  | demand
  | mode
  | speed
  | axle
  | air
  | blend
  | restrict
  | frame
  | mark
deriving DecidableEq, Repr

/-- A record of 24 bytes (R153). -/
structure Record where
  time : Time
  seq : BitVec 32
  kind : RecordKind
  subject : Byte
  data : List Byte
deriving DecidableEq, Repr

/-- Trigger sources (R156), in the order of their codes (section 11.4). -/
inductive TriggerSource where
  | restriction
  | emergency
  | sliding
  | frameMatch
  | request
deriving DecidableEq, Repr

/-- A trigger (R156). -/
structure Trigger where
  source : TriggerSource
  subject : Byte
  time : Time
  t : BitVec 32
deriving DecidableEq, Repr

/-- Slot states (R154), in the order of their codes (section 11.4). -/
inductive SlotState where
  | free
  | writing
  | complete
  | incomplete
  | erasing
deriving DecidableEq, Repr

/-- An entry of a header's trigger list (R154). -/
structure TrigEntry where
  source : TriggerSource
  subject : Byte
  index : Option Nat
deriving DecidableEq, Repr

/-- A slot header (R154). -/
structure Header where
  number : BitVec 32
  state : SlotState
  isProtected : Bool
  triggers : List TrigEntry
  merged : Nat
  dropped : Nat
  appNumber : BitVec 32
  openTime : Time
  count : Nat
  firstSeq : BitVec 32
  preTruncated : Bool
  postCut : Bool
deriving DecidableEq, Repr

/-- Content of a record cell: a record and the incident it was written for (R154). -/
structure NvCell where
  incident : BitVec 32
  record : Record
deriving DecidableEq, Repr

/-- What a header operation belongs to (R158, R160, R166, R167). -/
inductive HeaderOpKind where
  | claim
  | commit
  | guard
  | eraseBegin
  | eraseEnd
deriving DecidableEq, Repr

/-- A header write in progress or held on a slot (R166). -/
structure HeaderOp where
  kind : HeaderOpKind
  content : Header
  left : Nat
deriving DecidableEq, Repr

/-- A slot: its header in force, its header as NV holds it, its cells, its header operations (the head in
progress, the rest held, R166) and the byte times left of its erase (R167). -/
structure Slot where
  header : Header
  nv : Header
  cells : Vec (Option NvCell) 384
  ops : List HeaderOp
  erase : Option Nat
deriving DecidableEq, Repr

/-- The nonvolatile store (R154, R155). -/
structure Store where
  slots : Vec Slot 16
  nvNext : BitVec 32
  draws : Nat
deriving DecidableEq, Repr

/-- Capture state (R156). -/
inductive Capture where
  | idle
  | post
  | committing
deriving DecidableEq, Repr

/-- The commit operation in progress on the current incident (R160). -/
inductive CommitOp where
  | erase (left : Nat)
  | cell (index left : Nat)
  | header
deriving DecidableEq, Repr

/-- A trigger that opened or joined an incident, with its T (R158, R159). -/
structure Joined where
  source : TriggerSource
  subject : Byte
  t : BitVec 32
deriving DecidableEq, Repr

/-- The current incident (R158 to R160). -/
structure Incident where
  slot : Fin 16
  number : BitVec 32
  t : BitVec 32
  pre : Nat
  post : Nat
  buffer : List Record
  triggers : List Joined
  merged : Nat
  dropped : Nat
  appNumber : BitVec 32
  openTime : Time
  firstSeq : BitVec 32
  preTruncated : Bool
  postCut : Bool
  reused : Bool
  claimDone : Bool
  op : Option CommitOp
deriving DecidableEq, Repr

/-- Slot policy (R157), in the order of the codes (R191). -/
inductive Policy where
  | overwriteOldest
  | stopWhenFull
deriving DecidableEq, Repr

/-- Phase of the start-up scan's operation (R173). -/
inductive ScanPhase where
  | writeIncomplete (count : Nat)
  | erase
  | writeFree
deriving DecidableEq, Repr

/-- The start-up scan's operation in progress (R173). -/
structure Scan where
  slot : Fin 16
  phase : ScanPhase
  left : Nat
deriving DecidableEq, Repr

/-- The readout cursor, when not NONE (R168). -/
structure Cursor where
  slot : Fin 16
  index : Nat
  atEnd : Bool
deriving DecidableEq, Repr

/-- The ring and the recorder's volatile state (R174). -/
structure Recorder where
  ring : List Record
  nextSeq : BitVec 32
  pre : Nat
  post : Nat
  policy : Policy
  slidingTrigger : Bool
  capture : Capture
  current : Option Incident
  queue : List Trigger
  refused : Nat
  dropped : Nat
  scan : Option Scan
  cursor : Option Cursor
  nextIncident : BitVec 32
deriving DecidableEq, Repr

/-! ### Management responder (chapter 10) -/

/-- Notice kinds (R184), in the order of their codes (R190). -/
inductive NoticeKind where
  | restriction
  | governing
  | incident
  | mode
deriving DecidableEq, Repr

/-- A pending notice (R184). -/
structure Notice where
  kind : NoticeKind
  subject : Byte
  value : BitVec 32
  time : Time
deriving DecidableEq, Repr

/-- The notice enable set (R183). -/
structure NoticeEnables where
  restriction : Bool
  governing : Bool
  incident : Bool
  mode : Bool
deriving DecidableEq, Repr

/-- The management responder (R186). -/
structure Mgmt where
  malformed : Nat
  noticeAddress : Byte
  noticeSide : PortId
  enables : NoticeEnables
  notices : List Notice
deriving DecidableEq, Repr

/-! ### Work of the event in progress (model's own, log 7) -/

/-- What became of the last trigger (R171). -/
inductive TriggerOutcome where
  | opened (slot : Fin 16) (number : BitVec 32)
  | joined (slot : Fin 16)
  | queued (position : Nat)
  | refused
  | dropped
deriving DecidableEq, Repr

/-- Working flags of one event, clear between events (log 7). -/
structure Work where
  evalDue : Bool
  offerDue : Bool
  inRequest : Bool
  outcome : Option TriggerOutcome
deriving DecidableEq, Repr

/-- The state of the device, with the queue of waiting commands. -/
structure State where
  pending : List Instr
  clock : Clock
  ident : Ident
  link : Link
  cls : Classifier
  demand : Demand
  slide : Slide
  air : Air
  blend : Blend
  restrict : Restrict
  banks : Banks
  hist : Recorder
  store : Store
  mgmt : Mgmt
  work : Work
deriving DecidableEq, Repr

/-! ### Replacing one block -/

def State.withPending (s : State) (x : List Instr) : State := { s with pending := x }
def State.withClock (s : State) (x : Clock) : State := { s with clock := x }
def State.withLink (s : State) (x : Link) : State := { s with link := x }
def State.withCls (s : State) (x : Classifier) : State := { s with cls := x }
def State.withDemand (s : State) (x : Demand) : State := { s with demand := x }
def State.withSlide (s : State) (x : Slide) : State := { s with slide := x }
def State.withAir (s : State) (x : Air) : State := { s with air := x }
def State.withBlend (s : State) (x : Blend) : State := { s with blend := x }
def State.withRestrict (s : State) (x : Restrict) : State := { s with restrict := x }
def State.withBanks (s : State) (x : Banks) : State := { s with banks := x }
def State.withHist (s : State) (x : Recorder) : State := { s with hist := x }
def State.withStore (s : State) (x : Store) : State := { s with store := x }
def State.withMgmt (s : State) (x : Mgmt) : State := { s with mgmt := x }
def State.withWork (s : State) (x : Work) : State := { s with work := x }

/-! ### Values after power-on reset -/

/-- A port after power-on reset (R17, R34). -/
def Port.reset : Port where
  command := []
  forward := []
  threshold := 12
  fairness := 0
  tx := none
  crcRejects := 0
  lengthRejects := 0
  forwardDrops := 0
  framesSent := 0
  unknownSources := 0
  lastArrival := 0
  silenceTimer := none
  silent := false

/-- The link after power-on reset (R17). -/
def Link.reset : Link where
  a := Port.reset
  b := Port.reset
  seq := 0

/-- A sample after power-on reset (R34). -/
def AxleSample.reset : AxleSample where
  state := .stale
  lastGood := 0
  doubtful := 0
  freshTimer := none
  concealTimer := none

/-- A match entry after power-on reset (R34). -/
def MatchEntry.reset : MatchEntry where
  enable := false
  kind := 0
  source := 0
  offset := 0
  value := 0
  mask := 0

/-- The classifier after power-on reset (R34). -/
def Classifier.reset : Classifier where
  stations := []
  samples := Vec.fill 12 AxleSample.reset
  radarDoubtful := 0
  matchers := Vec.fill 4 MatchEntry.reset

/-- The demand unit after power-on reset, RELEASED with number 0 (R48, first sentence). -/
def Demand.reset : Demand where
  lLast := 0
  iLast := 0
  hold := .startHold
  emergency := false
  app := .released
  appNumber := 0
  releaseTimer := none
  mode := .transparent

/-- A slide record in CLEAR with nothing counted (R75, R76). -/
def SlideRecord.reset : SlideRecord where
  state := .clear
  factor := 1000
  suspect := 0
  episodeTime := 0
  periodStart := 0
  episodes := 0
  lastSlip := 0
  lastCreep := 0
  allowance := none

/-- The speed and slide unit after power-on reset (R76). -/
def Slide.reset : Slide where
  vref := 0
  acc := 0
  lastUpdate := 0
  radarSpeed := 0
  refTimer := none
  refLost := false
  lastSpeedRecord := 0
  axles := Vec.fill 3 SlideRecord.reset

/-- The air sequencer after power-on reset and after RESTART (R92). -/
def Air.reset : Air where
  state := .normal
  exhausted := false
  used := 0
  dumpStart := 0
  held := 0
  reapply := 0
  pSet := 0
  dumpTimer := none
  holdTimer := none
  stepTimer := none
  measured := 0
  status := .ok
  mismatchTimer := none
  mismatch := false

/-- An axle output after power-on reset and after RESTART (R118). -/
def AxleOut.reset : AxleOut where
  achieved := 0
  status := .ok
  content := ⟨0, false⟩
  pendingEffort := none
  start := 0
  lastSent := none
  refresh := none

/-- Working values where no evaluation has run (R116, R118). -/
def BlendWork.reset : BlendWork where
  level := 0
  independent := 0
  emergency := false
  hold := .none
  vref := 0
  re := 0
  ra := some 0
  fDem := 0
  c := 0
  d := 0
  axles := Vec.fill 3 ⟨false, 0, 0, 0, 0⟩
  sumU := 0
  fAir := 0
  pAuto := 0
  pInd := 0
  pSet := 0

/-- The blend engine after power-on reset and after RESTART (R118). -/
def Blend.reset : Blend where
  axles := Vec.fill 3 AxleOut.reset
  pressure := ⟨⟨0, .normal, false⟩, none, none⟩
  handover := none
  fPrev := 0
  work := BlendWork.reset
  prev := none

/-- A restriction entry after power-on reset: path, priority, action value, trigger flag (R120). -/
def Entry.reset (path : Path) (priority action : Nat) (trigger : Bool) : Entry where
  enable := true
  invert := false
  priority := priority
  path := path
  action := action
  trigger := trigger
  edge := .raise
  force := false
  condition := false
  pending := false
  latched := false

/-- The restriction table after power-on reset: the table of R120, entry 1 first. -/
def Restrict.reset : Restrict where
  entries := ⟨[
    Entry.reset .report 3 0 false, Entry.reset .report 9 0 true, Entry.reset .report 15 0 false,
    Entry.reset .electric 13 0 true, Entry.reset .report 2 0 false, Entry.reset .electric 7 600 true,
    Entry.reset .electric 8 700 true, Entry.reset .report 5 0 true, Entry.reset .electric 6 700 true,
    Entry.reset .electric 4 800 false, Entry.reset .electric 6 700 true, Entry.reset .report 10 0 true,
    Entry.reset .report 9 0 true, Entry.reset .report 11 0 true, Entry.reset .report 10 0 true,
    Entry.reset .report 10 0 true, Entry.reset .report 1 0 false, Entry.reset .report 1 0 false,
    Entry.reset .report 2 0 false, Entry.reset .air 1 600 false], rfl⟩
  limElectric := 0
  limAir := 0
  govElectric := 0
  govAir := 0

/-- A CURVE table cleared to 0 (R141). -/
def Curve.cleared : Curve := ⟨0, Vec.fill 16 ⟨0, 0⟩⟩

/-- A BOGIE table cleared to 0 (R141). -/
def BogieTable.cleared : BogieTable := ⟨0, 0, 0, 0, 0, 0, 0, 0, 0, false⟩

/-- A BANDS table cleared to 0 (R141). -/
def Band.cleared : Band := ⟨0, 0, 0, 0, 0, 0, 0⟩

/-- A SUPERVISION table cleared to 0 (R141). -/
def Supervision.cleared : Supervision := ⟨0, 0, 0, 0, 0, 0, 0, 0, 0, 0, 0, 0, 0, 0, 0, 0⟩

/-- A staged bank cleared to 0 (R141, R151). -/
def Tables.cleared : Tables :=
  ⟨Curve.cleared, BogieTable.cleared, Vec.fill 8 Band.cleared, Supervision.cleared⟩

/-- All four tables UNTOUCHED (R141). -/
def LoadStates.untouched : LoadStates := ⟨.untouched, .untouched, .untouched, .untouched⟩

/-- The table banks after power-on reset (R151). -/
def Banks.reset : Banks where
  active := none
  staged := Tables.cleared
  states := LoadStates.untouched
  openLoad := none
  pendingAdoption := false
  adoptions := 0

/-- The recorder's volatile state after power-on reset, before the scan and the first record (R174). The capture
state and the working next-incident-number, which R174 gives from the scan's end, are IDLE and 1 till then (log 49). -/
def Recorder.reset : Recorder where
  ring := []
  nextSeq := 0
  pre := 128
  post := 128
  policy := .overwriteOldest
  slidingTrigger := true
  capture := .idle
  current := none
  queue := []
  refused := 0
  dropped := 0
  scan := none
  cursor := none
  nextIncident := 1

/-- The header of a slot that holds no incident (R154, R167; log 20). -/
def Header.free : Header where
  number := 0
  state := .free
  isProtected := false
  triggers := []
  merged := 0
  dropped := 0
  appNumber := 0
  openTime := 0
  count := 0
  firstSeq := 0
  preTruncated := false
  postCut := false

/-- A slot as delivered (R154). -/
def Slot.delivered : Slot where
  header := Header.free
  nv := Header.free
  cells := Vec.fill 384 none
  ops := []
  erase := none

/-- The store as delivered (R154). -/
def Store.delivered : Store where
  slots := Vec.fill 16 Slot.delivered
  nvNext := 1
  draws := 0

/-- The responder after power-on reset (R186). -/
def Mgmt.reset : Mgmt where
  malformed := 0
  noticeAddress := 0
  noticeSide := .a
  enables := ⟨true, true, true, true⟩
  notices := []

/-- No work in progress. -/
def Work.clear : Work := ⟨false, false, false, none⟩

/-- The MODE record of the entry to APPLIED that opens application 1, sequence 0 (R48, R152): form 0,
RELEASED to APPLIED, TRANSPARENT, APPLIED, number 1, cause none (section 11.4), on bogie 0. -/
def Record.firstMode : Record where
  time := 0
  seq := 0
  kind := .mode
  subject := 0
  data := [0, 0, 1, 0, 1, 0, 0, 0, 1, 0, 0, 0, 0, 0]

/-- The device right after power-on reset of a store as delivered: the straps at 0, so position 0 and
address base 4 (R193; log 5), and application 1 opened under START_HOLD (R48, R53). -/
def State.reset : State where
  pending := []
  clock := ⟨0, 0, 0⟩
  ident := ⟨0, 0, 0, 4⟩
  link := Link.reset
  cls := Classifier.reset
  demand := { Demand.reset with app := .applied, appNumber := 1 }
  slide := Slide.reset
  air := Air.reset
  blend := Blend.reset
  restrict := Restrict.reset
  banks := Banks.reset
  hist := { Recorder.reset with ring := [Record.firstMode], nextSeq := 1 }
  store := Store.delivered
  mgmt := Mgmt.reset
  work := Work.clear

end Sys2Proof.Machine
end

