-- ==== Sys2Proof/Machine/Wire.lean ====
section
/-!
DEFINITION. Bytes on the wire: byte order (R189), the CRC (R2), the frame layout (R190), and the codes of
every named value (R190, R191, section 11.4; log 15).
-/

namespace Sys2Proof.Machine

/-! ### Byte order -/

/-- One byte of a value. -/
def b8 (n : Nat) : Byte := BitVec.ofNat 8 n

/-- A 2-byte field, high byte first (R189). -/
def be16 (n : Nat) : List Byte := [b8 (n / 256), b8 n]

/-- A 4-byte field, high byte first (R189). -/
def be32 (x : BitVec 32) : List Byte :=
  [b8 (x.toNat / 16777216), b8 (x.toNat / 65536), b8 (x.toNat / 256), b8 x.toNat]

/-- The value of a 2-byte field (R189). -/
def rd16 (hi lo : Byte) : Nat := hi.toNat * 256 + lo.toNat

/-- A one-byte flag (R189). -/
def flag (b : Bool) : Byte := if b then 1 else 0

/-- A 2-byte value that may be none (R189). -/
def opt16 : Option Nat → List Byte
  | none => be16 0xFFFF
  | some n => be16 n

/-- A value padded with 0 to a length (R189). -/
def padTo (n : Nat) (l : List Byte) : List Byte := l ++ List.replicate (n - l.length) 0

/-- A flag byte from its bits, bit 0 first. -/
def packBits : List Bool → Nat
  | [] => 0
  | b :: bs => (if b then 1 else 0) + 2 * packBits bs

/-- A count one higher, saturating (R194). -/
def bump (n : Nat) : Nat := min (n + 1) 65535

/-- A value clamped to a range (section 0.5). -/
def clamp (lo hi n : Nat) : Nat := max lo (min n hi)

/-! ### CRC -/

/-- One bit of the CRC register (R2): generator x^16 + x^12 + x^5 + 1. -/
def crcBit (c : BitVec 16) : BitVec 16 := if c.msb then (c <<< 1) ^^^ 0x1021#16 else c <<< 1

/-- One byte, most significant bit first (R2). -/
def crcByte (c : BitVec 16) (b : Byte) : BitVec 16 :=
  crcBit (crcBit (crcBit (crcBit (crcBit (crcBit (crcBit (crcBit (c ^^^ (b.setWidth 16 <<< 8)))))))))

/-- The CRC of a sequence of bytes, from 0xFFFF, with no final inversion (R2). -/
def crc16 (bytes : List Byte) : BitVec 16 := bytes.foldl crcByte 0xFFFF#16

/-! ### Frames -/

/-- Header and payload in the order of transmission (R190). -/
def Frame.body (f : Frame) : List Byte :=
  [f.kind, f.dest, f.src, f.seq, b8 f.payload.length] ++ f.payload

/-- The whole frame, CRC high byte first (R190). -/
def Frame.bytes (f : Frame) : List Byte := f.body ++ be16 f.crc.toNat

/-- A frame with the CRC of its header and payload (R2). -/
def Frame.sealed (kind dest src seq : Byte) (payload : List Byte) : Frame :=
  let f : Frame := ⟨kind, dest, src, seq, payload, 0⟩
  { f with crc := crc16 f.body }

/-- Byte times a frame occupies the transmitter (R3). -/
def Frame.ticks (f : Frame) : Nat := f.payload.length + 9

/-! ### Frame kinds (R190) -/

def kindDemand : Byte := 0x10
def kindAxleSpeed : Byte := 0x11
def kindGroundSpeed : Byte := 0x12
def kindEffortCmd : Byte := 0x20
def kindEffortReport : Byte := 0x21
def kindPressureCmd : Byte := 0x22
def kindPressureReport : Byte := 0x23
def kindRequest : Byte := 0x30
def kindReply : Byte := 0x31
def kindNotice : Byte := 0x32

/-! ### Codes -/

def portCode : PortId → Byte
  | .a => 0
  | .b => 1

def portOfCode (b : Byte) : Option PortId :=
  if b = 0 then some .a else if b = 1 then some .b else none

def Role.code : Role → Byte
  | .cab => 0
  | .axleUnit => 1
  | .radar => 2
  | .converter => 3
  | .valve => 4
  | .peer => 5

def Role.ofCode (b : Byte) : Option Role :=
  if b = 0 then some .cab else if b = 1 then some .axleUnit else if b = 2 then some .radar
  else if b = 3 then some .converter else if b = 4 then some .valve else if b = 5 then some .peer else none

def StationState.code : StationState → Byte
  | .new => 0
  | .fresh => 1
  | .late => 2
  | .stale => 3

def SampleState.code : SampleState → Byte
  | .fresh => 0
  | .late => 1
  | .stale => 2

def ConverterStatus.code : ConverterStatus → Byte
  | .ok => 0
  | .derated => 1
  | .fault => 2

def ConverterStatus.ofCode (b : Byte) : Option ConverterStatus :=
  if b = 0 then some .ok else if b = 1 then some .derated else if b = 2 then some .fault else none

def ValveStatus.code : ValveStatus → Byte
  | .ok => 0
  | .fault => 1

def ValveStatus.ofCode (b : Byte) : Option ValveStatus :=
  if b = 0 then some .ok else if b = 1 then some .fault else none

def Hold.code : Hold → Byte
  | .none => 0
  | .startHold => 1
  | .held => 2
  | .penalty => 3

def AppState.code : AppState → Byte
  | .released => 0
  | .applied => 1
  | .releasing => 2

def Mode.code : Mode → Byte
  | .transparent => 0
  | .active => 1
  | .isolated => 2

def SlideState.code : SlideState → Byte
  | .clear => 0
  | .suspect => 1
  | .sliding => 2
  | .recovering => 3
  | .isolated => 4
  | .unsensed => 5

def AirState.code : AirState → Byte
  | .normal => 0
  | .dump => 1
  | .hold => 2
  | .reapply => 3

def Path.code : Path → Byte
  | .electric => 0
  | .air => 1
  | .report => 2

def Path.ofCode (b : Byte) : Option Path :=
  if b = 0 then some .electric else if b = 1 then some .air else if b = 2 then some .report else none

def NoticeEdge.code : NoticeEdge → Byte
  | .none => 0
  | .raise => 1
  | .clear => 2
  | .both => 3

def NoticeEdge.ofCode (b : Byte) : Option NoticeEdge :=
  if b = 0 then some .none else if b = 1 then some .raise else if b = 2 then some .clear
  else if b = 3 then some .both else Option.none

def TableId.code : TableId → Byte
  | .curve => 0
  | .bogie => 1
  | .bands => 2
  | .supervision => 3

def tableOfNat (n : Nat) : Option TableId :=
  if n = 0 then some .curve else if n = 1 then some .bogie else if n = 2 then some .bands
  else if n = 3 then some .supervision else none

/-- Codes of the load states, in the order in which chapter 8 lists them (log 15). -/
def LoadState.code : LoadState → Byte
  | .untouched => 0
  | .loading => 1
  | .loaded => 2
  | .incomplete => 3

def RecordKind.code : RecordKind → Byte
  | .demand => 1
  | .mode => 2
  | .speed => 3
  | .axle => 4
  | .air => 5
  | .blend => 6
  | .restrict => 7
  | .frame => 8
  | .mark => 9

def TriggerSource.code : TriggerSource → Byte
  | .restriction => 0
  | .emergency => 1
  | .sliding => 2
  | .frameMatch => 3
  | .request => 4

def SlotState.code : SlotState → Nat
  | .free => 0
  | .writing => 1
  | .complete => 2
  | .incomplete => 3
  | .erasing => 4

def Capture.code : Capture → Nat
  | .idle => 0
  | .post => 1
  | .committing => 2

def Policy.code : Policy → Byte
  | .overwriteOldest => 0
  | .stopWhenFull => 1

def Policy.ofCode (b : Byte) : Option Policy :=
  if b = 0 then some .overwriteOldest else if b = 1 then some .stopWhenFull else none

def NoticeKind.code : NoticeKind → Byte
  | .restriction => 0
  | .governing => 1
  | .incident => 2
  | .mode => 3

/-! ### Records and headers (section 11.4) -/

/-- The 24 bytes of a record. -/
def Record.bytes (r : Record) : List Byte :=
  be32 r.time ++ be32 r.seq ++ [r.kind.code, r.subject] ++ r.data

/-- Byte 4 of a header. -/
def Header.flagByte (h : Header) : Byte :=
  b8 (h.state.code + 8 * packBits [h.isProtected, h.preTruncated, h.postCut])

/-- The first fourteen bytes of a header, which both forms share. -/
def Header.front (h : Header) : List Byte :=
  be32 h.number ++ [h.flagByte, b8 h.triggers.length, b8 h.merged, b8 h.dropped] ++ be16 h.count ++
    be32 h.firstSeq

/-- The 16-byte summary form (R192). -/
def Header.summary (h : Header) : List Byte := h.front ++ be16 (h.appNumber.toNat % 65536)

/-- One trigger entry; the index may be none. -/
def TrigEntry.bytes (t : TrigEntry) : List Byte := [t.source.code, t.subject] ++ opt16 t.index

/-- The full header of 38 bytes, unused trigger entries 0. -/
def Header.bytes (h : Header) : List Byte :=
  h.front ++ be32 h.appNumber ++ be32 h.openTime ++ padTo 16 ((h.triggers.take 4).flatMap TrigEntry.bytes)

end Sys2Proof.Machine
end

