-- ==== Sys2Proof/Machine/Ops.lean ====
section
/-!
DEFINITION. Shared operations: times and timers (R194), who the device is (R193), the ports and their
queues (R6 to R11), the station table read (R19), the active tables read (R136), and the working flags of
the event in progress (log 7).
-/

namespace Sys2Proof.Machine

/-! ### Times and timers -/

/-- The time base. -/
def State.now (s : State) : Time := s.clock.time

/-- The time since an instant, in ms, modulo 2^32 (R194). -/
def since (now t : Time) : Nat := (now - t).toNat

/-- The time since an instant, saturating at 65535 (R16, R21, R74). -/
def sinceSat (now t : Time) : Nat := min (since now t) 65535

/-- A timer set now. -/
def State.timer (s : State) (len : Nat) : Timer := ⟨s.now, len⟩

/-- Whether a timer's expiry has come. -/
def Timer.due (t : Timer) (now : Time) : Bool := decide (t.len ≤ since now t.start)

/-- The time to a timer's expiry, in ms. -/
def Timer.left (t : Timer) (now : Time) : Nat := t.len - since now t.start

/-- The time to the expiry of a timer as a reply carries it: none when it does not run (log 16). -/
def timerLeft (now : Time) (t : Option Timer) : List Byte := opt16 (t.map (fun x => x.left now))

/-! ### Identity -/

/-- The device's own node address (R193). -/
def State.node (s : State) : Nat := s.ident.base + s.ident.position.val

/-- The device's own node address as the SRC of its frames. -/
def State.nodeByte (s : State) : Byte := b8 s.node

/-- The bogie number p as a record subject. -/
def State.bogieByte (s : State) : Byte := b8 s.ident.position.val

/-- The global number of an own axle (section 0.5). -/
def State.globalAxle (s : State) (i : Fin 3) : Fin 12 :=
  ⟨3 * s.ident.position.val + i.val, by omega⟩

/-- The own index of a global axle, if the device's position owns it (section 0.5). -/
def State.ownIndex (s : State) (g : Nat) : Option (Fin 3) :=
  if g / 3 = s.ident.position.val then some ⟨g % 3, Nat.mod_lt _ (by decide)⟩ else none

/-- The three own axles in order. -/
def ownAxles : List (Fin 3) := [0, 1, 2]

/-! ### The active tables -/

/-- The axle count n, 0 while the active bank is empty (R94, R31). -/
def State.n (s : State) : Nat := match s.banks.active with
  | none => 0
  | some b => b.bogie.n

/-- Whether an own axle is configured (section 0.5). -/
def State.configured (s : State) (i : Fin 3) : Bool := decide (i.val < s.n)

/-- V_min of the active SUPERVISION table, or 10 while there is none (R41). -/
def State.vMin (s : State) : Nat := match s.banks.active with
  | none => Config.vMinDefault
  | some b => b.supervision.vMin

/-- T_hold and T_step in ms (R85). -/
def Supervision.tSlide (t : Supervision) : Nat := 5 * (t.slideScale + 1) * (t.slideCount + 1)

/-- T_lead in ms (R106). -/
def Supervision.tLead (t : Supervision) : Nat := 10 * (t.handoverScale + 1) * (t.handoverCount + 1)

/-- The dump budget, 0 while no SUPERVISION table is active (R91). -/
def State.dumpBudget (s : State) : Nat := match s.banks.active with
  | none => 0
  | some b => b.supervision.dumpBudget

/-! ### Working flags -/

/-- One evaluation is due at the event's end (R93). -/
def State.callEval (s : State) : State := s.withWork { s.work with evalDue := true }

/-- An evaluation is due when a test holds. -/
def State.callEvalIf (c : Bool) (s : State) : State := if c then s.callEval else s

/-- An offering of pending notices is called for (R185). -/
def State.callOffer (s : State) : State := s.withWork { s.work with offerDue := true }

/-! ### Ports -/

/-- A port. -/
def State.port (s : State) (p : PortId) : Port := match p with
  | .a => s.link.a
  | .b => s.link.b

/-- The link with one port replaced. -/
def Link.setPort (l : Link) (p : PortId) (x : Port) : Link := match p with
  | .a => { l with a := x }
  | .b => { l with b := x }

/-- One port replaced. -/
def State.putPort (s : State) (p : PortId) (x : Port) : State := s.withLink (s.link.setPort p x)

/-- The other port (R5). -/
def otherPort : PortId → PortId
  | .a => .b
  | .b => .a

/-- FORWARD_CONGESTED (R7). -/
def State.congested (s : State) : Bool :=
  decide (s.link.a.threshold ≤ s.link.a.forward.length) || decide (s.link.b.threshold ≤ s.link.b.forward.length)

/-- A frame joins the tail of a FORWARD queue (R6). -/
def State.joinForward (s : State) (p : PortId) (q : Queued) : State :=
  s.putPort p { s.port p with forward := (s.port p).forward ++ [q] }

/-- A frame refused a place in a FORWARD queue is counted (R6, R12). -/
def State.countDrop (s : State) (p : PortId) : State :=
  s.putPort p { s.port p with forwardDrops := bump (s.port p).forwardDrops }

/-- The offer of a forwarded frame (R6): taken while the queue holds 0..14 frames. -/
def State.offerForwarded (s : State) (p : PortId) (f : Frame) : State :=
  if (s.port p).forward.length + 2 ≤ Config.forwardPlaces then s.joinForward p (.forwarded f) else s.countDrop p

/-- The offer of a reply (R6): taken while the queue holds 0..15 frames. -/
def State.offerReply (s : State) (p : PortId) (o : Orig) : State :=
  if (s.port p).forward.length + 1 ≤ Config.forwardPlaces then s.joinForward p (.originated o) else s.countDrop p

/-- Whether a FORWARD queue takes a notice (R6): below its threshold and no more than 14 frames. -/
def Port.takesNotice (p : Port) : Bool :=
  decide (p.forward.length < p.threshold) && decide (p.forward.length + 2 ≤ Config.forwardPlaces)

/-- An originated frame stamped with the device's address, its SEQ and its CRC (R1, R2, R11). -/
def State.stamp (s : State) (o : Orig) : Frame := Frame.sealed o.kind o.dest s.nodeByte s.link.seq o.payload

/-- A transmission starts (R3): an originated frame takes the SEQ counter's value (R11). -/
def State.transmit (s : State) (p : PortId) (q : Queued) : State :=
  match q with
  | .forwarded f => s.putPort p { s.port p with tx := some ⟨f, f.ticks⟩ }
  | .originated o =>
    let f := s.stamp o
    let s1 := s.putPort p { s.port p with tx := some ⟨f, f.ticks⟩ }
    s1.withLink { s1.link with seq := s1.link.seq + 1 }

/-- The head of COMMAND starts (R10). -/
def State.startCommand (s : State) (p : PortId) (c : Command) (rest : List Command) (k : Nat) : State :=
  (s.putPort p { s.port p with command := rest, fairness := k }).transmit p (.originated c.frame)

/-- The head of FORWARD starts (R10). A queue that then holds fewer frames than its threshold is
reported, and an offering is called for if it is the notice side's (R7, R185). -/
def State.startForward (s : State) (p : PortId) (q : Queued) (rest : List Queued) : State :=
  let s1 := (s.putPort p { s.port p with forward := rest, fairness := 0 }).transmit p q
  if rest.length < (s.port p).threshold ∧ s.mgmt.noticeSide = p then s1.callOffer else s1

/-- The arbiter's selection (R10): none where the transmitter is busy or both queues are empty. -/
def State.arbitrate (s : State) (p : PortId) : Option State :=
  match (s.port p).tx, (s.port p).command, (s.port p).forward with
  | some _, _, _ => none
  | none, [], [] => none
  | none, c :: cs, [] => some (s.startCommand p c cs 0)
  | none, [], q :: qs => some (s.startForward p q qs)
  | none, c :: cs, q :: qs =>
    if (s.port p).fairness < 4 then some (s.startCommand p c cs ((s.port p).fairness + 1))
    else some (s.startForward p q qs)

/-- A command replaces the queued command of its target in its place, or joins the tail (R8). -/
def placeCommand (c : Command) : List Command → List Command
  | [] => [c]
  | d :: ds => if d.target = c.target then c :: ds else d :: placeCommand c ds

/-- A command is offered to a COMMAND queue, always taken (R8), and the arbiter selects if its
transmitter is idle (R10). -/
def State.offerCommand (s : State) (p : PortId) (c : Command) : State :=
  let s1 := s.putPort p { s.port p with command := placeCommand c (s.port p).command }
  (s1.arbitrate p).getD s1

/-! ### Reading the station table -/

/-- The entry with an address (R19). -/
def State.station (s : State) (a : Byte) : Option Station :=
  s.cls.stations.find? (fun e => decide (e.address = a))

/-- The first entry of a role. -/
def State.stationOfRole (s : State) (r : Role) : Option Station :=
  s.cls.stations.find? (fun e => decide (e.role = r))

/-- The entry of a role that binds a number (R19). -/
def State.stationBinding (s : State) (r : Role) (k : Nat) : Option Station :=
  s.cls.stations.find? (fun e => decide (e.role = r) && e.bound.contains k)

/-- The CONVERTER entry binding an own axle. -/
def State.converterOf (s : State) (i : Fin 3) : Option Station :=
  s.stationBinding .converter (s.globalAxle i).val

/-- The VALVE entry binding bogie p. -/
def State.valve (s : State) : Option Station := s.stationBinding .valve s.ident.position.val

/-- FRESH or LATE (R31, R95). -/
def Station.live (e : Station) : Bool := match e.state with
  | .fresh => true
  | .late => true
  | .new => false
  | .stale => false

/-- One entry of the station table changed. -/
def State.mapStation (s : State) (a : Byte) (f : Station → Station) : State :=
  s.withCls { s.cls with stations := s.cls.stations.map (fun e => if e.address = a then f e else e) }

/-! ### Own axles, samples, slots, entries -/

/-- An own axle's slide record. -/
def State.axle (s : State) (i : Fin 3) : SlideRecord := s.slide.axles.get i

/-- An own axle's slide record replaced. -/
def State.putAxle (s : State) (i : Fin 3) (r : SlideRecord) : State :=
  s.withSlide { s.slide with axles := s.slide.axles.set i r }

/-- A global axle's sample. -/
def State.sample (s : State) (g : Fin 12) : AxleSample := s.cls.samples.get g

/-- A global axle's sample replaced. -/
def State.putSample (s : State) (g : Fin 12) (x : AxleSample) : State :=
  s.withCls { s.cls with samples := s.cls.samples.set g x }

/-- An own axle's sample. -/
def State.ownSample (s : State) (i : Fin 3) : AxleSample := s.sample (s.globalAxle i)

/-- Whether some own configured axle's slide record passes a test. -/
def State.anyAxle (s : State) (f : SlideRecord → Bool) : Bool :=
  ownAxles.any (fun i => s.configured i && f (s.axle i))

/-- An axle's blend state and output. -/
def State.out (s : State) (i : Fin 3) : AxleOut := s.blend.axles.get i

/-- An axle's blend state and output replaced. -/
def State.putOut (s : State) (i : Fin 3) (x : AxleOut) : State :=
  s.withBlend { s.blend with axles := s.blend.axles.set i x }

/-- A slot of the store. -/
def State.slot (s : State) (k : Fin 16) : Slot := s.store.slots.get k

/-- A slot of the store replaced. -/
def State.putSlot (s : State) (k : Fin 16) (x : Slot) : State :=
  s.withStore { s.store with slots := s.store.slots.set k x }

/-- The sixteen slots in order. -/
def allSlots : List (Fin 16) := [0, 1, 2, 3, 4, 5, 6, 7, 8, 9, 10, 11, 12, 13, 14, 15]

/-- A restriction entry, by index (its number less 1). -/
def State.entry (s : State) (i : Fin 20) : Entry := s.restrict.entries.get i

/-- A restriction entry replaced. -/
def State.putEntry (s : State) (i : Fin 20) (x : Entry) : State :=
  s.withRestrict { s.restrict with entries := s.restrict.entries.set i x }

end Sys2Proof.Machine
end

