-- ==== Sys2Proof/Machine/Recorder.lean ====
section
/-!
DEFINITION. The history ring (R152, R153), the triggers (R156), the capture of incidents (R157 to R159),
the commit (R160), the trigger queue (R161, R163), NV operations (R166) and the start-up scan (R173).
-/

namespace Sys2Proof.Machine

/-! ### NV operations -/

/-- Ticks the next NV operation takes: free, from 1 to its maximum (R160, R167; log 9). -/
def State.nvTicks (s : State) (most : Nat) : Nat := 1 + Config.nvDuration s.store.draws % most

/-- One free value drawn. -/
def State.drawNv (s : State) : State := s.withStore { s.store with draws := s.store.draws + 1 }

/-- A header write started on a slot; held behind one in progress (R166). -/
def State.pushOp (s : State) (k : Fin 16) (kind : HeaderOpKind) (content : Header) : State :=
  let op : HeaderOp := ⟨kind, content, s.nvTicks Config.writeMax⟩
  (s.putSlot k { s.slot k with ops := (s.slot k).ops ++ [op] }).drawNv

/-- A slot's header in force replaced. -/
def State.putHeader (s : State) (k : Fin 16) (h : Header) : State := s.putSlot k { s.slot k with header := h }

/-- The header write at the head of a slot's operations, if it is of one of the kinds asked for. -/
def Slot.headOp (x : Slot) (kinds : List HeaderOpKind) : Option HeaderOp :=
  match x.ops with
  | [] => none
  | op :: _ => if kinds.contains op.kind then some op else none

/-- The erase of a slot's record cells started (R167). -/
def State.startErase (s : State) (k : Fin 16) : State :=
  (s.putSlot k { s.slot k with erase := some (s.nvTicks Config.eraseMax) }).drawNv

/-- Whether the head header write of a slot is an erase's that waited its turn: its record cells are to be
erased now (R166). -/
def Slot.eraseWaits (x : Slot) : Bool := match x.ops with
  | [] => false
  | op :: _ => decide (op.kind = .eraseBegin) && x.erase.isNone

/-- The head header write completes: NV holds its content and the next held one runs, an erase with its
record cells (R166). -/
def State.popOp (s : State) (k : Fin 16) (op : HeaderOp) : State :=
  let s1 := s.putSlot k { s.slot k with nv := op.content, ops := (s.slot k).ops.tail }
  if (s1.slot k).eraseWaits then s1.startErase k else s1

/-- Every record cell of a slot blank (R160, R167). -/
def blankCells : Vec (Option NvCell) 384 := Vec.fill 384 none

/-- A record cell of a slot, none outside its 384 cells. -/
def Slot.cell (x : Slot) (k : Nat) : Option NvCell :=
  if h : k < 384 then x.cells.get ⟨k, h⟩ else none

/-- A record cell of a slot written (R160). -/
def Slot.writeCell (x : Slot) (k : Nat) (c : NvCell) : Slot :=
  if h : k < 384 then { x with cells := x.cells.set ⟨k, h⟩ (some c) } else x

/-! ### The current incident -/

/-- The current incident replaced. -/
def State.putIncident (s : State) (i : Incident) : State := s.withHist { s.hist with current := some i }

/-- A trigger's index in an incident's records, none when its record is not among them (R154). -/
def indexIn (buffer : List Record) (t : BitVec 32) : Option Nat :=
  buffer.findIdx? (fun r => decide (r.seq = t))

/-- The header written at stage 3 (R160; log 21). -/
def Incident.header (i : Incident) : Header where
  number := i.number
  state := .complete
  isProtected := false
  triggers := i.triggers.map (fun j => ⟨j.source, j.subject, indexIn i.buffer j.t⟩)
  merged := i.merged
  dropped := i.dropped
  appNumber := i.appNumber
  openTime := i.openTime
  count := i.buffer.length
  firstSeq := i.firstSeq
  preTruncated := i.preTruncated
  postCut := i.postCut

/-- Stage 2 writes the cell after the records already written, or stage 3 begins (R160). -/
def State.commitFrom (s : State) (i : Incident) (k : Nat) : State :=
  if k < i.buffer.length then
    (s.putIncident { i with op := some (.cell k (s.nvTicks Config.writeMax)) }).drawNv
  else
    (s.putIncident { i with op := some .header }).pushOp i.slot .commit i.header

/-- The first operation of a commit: stage 1 for a slot that held an incident, else stage 2 (R160). -/
def State.startCommit (s : State) (i : Incident) : State :=
  if i.reused then (s.putIncident { i with op := some (.erase (s.nvTicks Config.eraseMax)) }).drawNv
  else s.commitFrom i 0

/-- Entry to COMMITTING: the first operation begins now if the claim's header write is complete, and at
its completion otherwise (R160). -/
def State.beginCommit (s : State) (i : Incident) : State :=
  let s1 := (s.withHist { s.hist with capture := .committing }).putIncident i
  if i.claimDone then s1.startCommit i else s1

/-! ### Records -/

/-- A record joins the ring, the oldest leaving a full one (R152). -/
def ringPush (ring : List Record) (r : Record) : List Record :=
  if ring.length < Config.ringRecords then ring ++ [r] else ring.tail ++ [r]

/-- In POST, a record of the post-window is appended to the capture buffer; the last begins the commit
(R159). -/
def State.appendPost (s : State) (r : Record) : State :=
  match s.hist.capture, s.hist.current with
  | .post, some i =>
    if since r.seq i.t < i.post then
      let i1 := { i with buffer := i.buffer ++ [r] }
      if since r.seq i.t + 1 = i.post then s.beginCommit i1 else s.putIncident i1
    else s
  | _, _ => s

/-- A block writes a record (R152, R153). -/
def State.writeRecord (s : State) (kind : RecordKind) (subject : Byte) (data : List Byte) : State :=
  let r : Record := ⟨s.now, s.hist.nextSeq, kind, subject, padTo 14 data⟩
  (s.withHist { s.hist with ring := ringPush s.hist.ring r, nextSeq := s.hist.nextSeq + 1 }).appendPost r

/-! ### Opening an incident -/

/-- A COMPLETE or INCOMPLETE slot (R157, R166). -/
def Header.holdsIncident (h : Header) : Bool := decide (h.state = .complete ∨ h.state = .incomplete)

/-- The slot of the lowest incident number among those that may be overwritten (R157). -/
def oldestSlot (s : State) : List (Fin 16) → Option (Fin 16)
  | [] => none
  | k :: ks =>
    let rest := oldestSlot s ks
    if (s.slot k).header.holdsIncident && !(s.slot k).header.isProtected then
      match rest with
      | none => some k
      | some j => if (s.slot k).header.number ≤ (s.slot j).header.number then some k else some j
    else rest

/-- The slot an incident is opened on (R157). -/
def State.chooseSlot (s : State) : Option (Fin 16) :=
  match allSlots.find? (fun k => decide ((s.slot k).header.state = .free)) with
  | some k => some k
  | none => match s.hist.policy with
    | .overwriteOldest => oldestSlot s allSlots
    | .stopWhenFull => none

/-- One more than an incident number, 0 never given (R155). -/
def nextNumber (n : BitVec 32) : BitVec 32 := if n + 1 = 0 then 1 else n + 1

/-- Whether a non-FREE slot holds an incident number (R155). -/
def State.numberHeld (s : State) (n : BitVec 32) : Bool :=
  allSlots.any (fun k => decide ((s.slot k).header.state ≠ .free ∧ (s.slot k).header.number = n))

/-- The next number that no non-FREE slot holds; sixteen slots hold at most sixteen numbers (R155). -/
def State.freeNumber (s : State) : Nat → BitVec 32 → BitVec 32
  | 0, n => n
  | fuel + 1, n => if s.numberHeld n then s.freeNumber fuel (nextNumber n) else n

/-- Whether the record of a sequence is in the ring. -/
def State.inRing (s : State) (q : BitVec 32) : Bool := s.hist.ring.any (fun r => decide (r.seq = q))

/-- The window's records that are in the ring, in sequence order (R158 step 2). -/
def State.windowRecords (s : State) (t : BitVec 32) (pre post : Nat) : List Record :=
  s.hist.ring.filter (fun r => decide (since r.seq (t - BitVec.ofNat 32 pre) < pre + post))

/-- PRE_TRUNCATED at the opening (R158 step 2): the window has a first record, and it is missing. A T
still to be written, with no pre-window before it, is not missing (log 22). -/
def State.truncated (s : State) (t : BitVec 32) (pre post : Nat) : Bool :=
  decide (0 < pre + post) && !s.inRing (t - BitVec.ofNat 32 pre) &&
    !(decide (pre = 0) && decide (t = s.hist.nextSeq))

/-- The opening trigger's index as the claim writes it (R154, R158 step 3): its record's place in the
buffer, or the place it will take as the first record of the post-window. -/
def openingIndex (buffer : List Record) (t next : BitVec 32) (post : Nat) : Option Nat :=
  match indexIn buffer t with
  | some i => some i
  | none => if t = next ∧ 0 < post then some buffer.length else none

/-- The header the claim writes (R158 step 3). -/
def Incident.claimHeader (i : Incident) (next : BitVec 32) : Header where
  number := i.number
  state := .writing
  isProtected := false
  triggers := i.triggers.map (fun j => ⟨j.source, j.subject, openingIndex i.buffer j.t next i.post⟩)
  merged := 0
  dropped := 0
  appNumber := i.appNumber
  openTime := i.openTime
  count := 0
  firstSeq := i.firstSeq
  preTruncated := i.preTruncated
  postCut := false

/-- The readout cursor becomes NONE if it is on a slot (R158 step 4, R167). -/
def State.leaveSlot (s : State) (k : Fin 16) : State :=
  match s.hist.cursor with
  | some c => if c.slot = k then s.withHist { s.hist with cursor := none } else s
  | none => s

/-- The outcome of a trigger noted for R171's reply. -/
def State.note (s : State) (o : TriggerOutcome) : State := s.withWork { s.work with outcome := some o }

/-- The incident a trigger opens on a slot (R158 steps 1 and 2). -/
def State.newIncident (s : State) (g : Trigger) (k : Fin 16) : Incident :=
  let buffer := s.windowRecords g.t s.hist.pre s.hist.post
  { slot := k
    number := s.freeNumber 17 s.hist.nextIncident
    t := g.t
    pre := s.hist.pre
    post := s.hist.post
    buffer := buffer
    triggers := [⟨g.source, g.subject, g.t⟩]
    merged := 0
    dropped := 0
    appNumber := s.demand.appNumber
    openTime := g.time
    firstSeq := match buffer with
      | [] => g.t
      | r :: _ => r.seq
    preTruncated := s.truncated g.t s.hist.pre s.hist.post
    postCut := false
    reused := (s.slot k).header.holdsIncident
    claimDone := false
    op := none }

/-- An incident is opened on a slot (R158). -/
def State.openOn (s : State) (g : Trigger) (k : Fin 16) : State :=
  let i := s.newIncident g k
  let h := i.claimHeader s.hist.nextSeq
  let s1 := s.withHist { s.hist with nextIncident := nextNumber i.number, capture := .post, current := some i }
  let s2 := ((s1.putHeader k h).pushOp k .claim h).leaveSlot k
  let s3 := s2.note (.opened k i.number)
  if i.post ≤ since s.hist.nextSeq g.t then s3.beginCommit i else s3

/-- A trigger opens an incident, or is refused and counted where no slot can be claimed (R157). -/
def State.openIncident (s : State) (g : Trigger) : State :=
  match s.chooseSlot with
  | some k => s.openOn g k
  | none => (s.withHist { s.hist with refused := bump s.hist.refused }).note .refused

/-! ### Taking a trigger -/

/-- A trigger joins the current incident (R159). -/
def State.joinTrigger (s : State) (g : Trigger) : State :=
  match s.hist.current with
  | none => s
  | some i =>
    let i1 := if i.triggers.length < 4 then { i with triggers := i.triggers ++ [⟨g.source, g.subject, g.t⟩] }
      else { i with merged := min (i.merged + 1) 255 }
    (s.putIncident i1).note (.joined i.slot)

/-- A trigger dropped from a full queue is counted, in the committing incident too (R163). -/
def State.dropTrigger (s : State) : State :=
  let h := { s.hist with dropped := bump s.hist.dropped }
  let s1 := match s.hist.capture, s.hist.current with
    | .committing, some i => s.withHist { h with current := some { i with dropped := min (i.dropped + 1) 255 } }
    | _, _ => s.withHist h
  s1.note .dropped

/-- A trigger joins the trigger queue, or is dropped (R163). -/
def State.queueTrigger (s : State) (g : Trigger) : State :=
  if s.hist.queue.length < Config.triggerPlaces then
    (s.withHist { s.hist with queue := s.hist.queue ++ [g] }).note (.queued s.hist.queue.length)
  else s.dropTrigger

/-- The recorder takes a trigger by the scan flag and the capture state (R156). -/
def State.takeTrigger (s : State) (g : Trigger) : State :=
  match s.hist.scan, s.hist.capture with
  | some _, _ => s.queueTrigger g
  | none, .idle => s.openIncident g
  | none, .post => s.joinTrigger g
  | none, .committing => s.queueTrigger g

/-- A block sends a trigger; its T is the sequence of the next record (R156). -/
def State.sendTrigger (s : State) (source : TriggerSource) (subject : Byte) : State :=
  s.takeTrigger ⟨source, subject, s.now, s.hist.nextSeq⟩

/-- The trigger queue served in order (R161): the first that opens an incident in POST takes the rest
with it; one that opens a committing incident leaves the rest queued. -/
def State.serveFrom (s : State) : List Trigger → State
  | [] => s.withHist { s.hist with queue := [] }
  | g :: gs =>
    let s1 := (s.withHist { s.hist with queue := gs }).openIncident g
    match s1.hist.capture with
    | .idle => s1.serveFrom gs
    | .post => gs.foldl State.joinTrigger (s1.withHist { s1.hist with queue := [] })
    | .committing => s1

/-- The service of the trigger queue (R161): an incident that is in POST takes the triggers still queued, one that
is COMMITTING leaves them. -/
def State.serveQueue (s : State) : State := match s.hist.capture with
  | .idle => s.serveFrom s.hist.queue
  | .post => s.hist.queue.foldl State.joinTrigger (s.withHist { s.hist with queue := [] })
  | .committing => s

/-- STORE_UNAVAILABLE (R164). -/
def State.storeUnavailable (s : State) : Bool :=
  s.hist.scan.isNone && allSlots.all (fun k => decide ((s.slot k).header.state ≠ .free)) &&
    (decide (s.hist.policy = .stopWhenFull) ||
      allSlots.all (fun k => !(s.slot k).header.holdsIncident || (s.slot k).header.isProtected))

/-! ### The start-up scan -/

/-- Cells counted from cell 0 while each holds a record of an incident (R173). -/
def countCells (n : BitVec 32) : List (Option NvCell) → Nat
  | some c :: cs => if c.incident = n then 1 + countCells n cs else 0
  | _ => 0

/-- The scan operation a slot needs, if any (R173). -/
def scanPhase (x : Slot) : Option ScanPhase := match x.header.state with
  | .writing => some (.writeIncomplete (countCells x.header.number x.cells.toList))
  | .erasing => some .erase
  | .free => none
  | .complete => none
  | .incomplete => none

/-- The scan's operation started. -/
def State.putScan (s : State) (k : Fin 16) (ph : ScanPhase) (most : Nat) : State :=
  (s.withHist { s.hist with scan := some ⟨k, ph, s.nvTicks most⟩ }).drawNv

/-- The highest incident number held by a non-FREE slot, 0 if none (R155). -/
def State.highestNumber (s : State) : Nat :=
  allSlots.foldl (fun m k => if (s.slot k).header.state = .free then m else max m (s.slot k).header.number.toNat) 0

/-- The scan ends: the next-incident-number is set (R155; log 23) and the scan flag cleared (R173). -/
def State.endScan (s : State) : State :=
  let held := s.highestNumber
  let after := nextNumber (BitVec.ofNat 32 held)
  let n := if held = 0 ∨ after ≤ s.store.nvNext then s.store.nvNext else after
  s.withHist { s.hist with scan := none, nextIncident := n, capture := .idle }

/-- The scan goes on from a list of slots: the first that needs an operation, or the end (R173). -/
def State.scanFrom (s : State) : List (Fin 16) → State
  | [] => s.endScan
  | k :: ks => match scanPhase (s.slot k) with
    | some (.writeIncomplete c) => s.putScan k (.writeIncomplete c) Config.writeMax
    | some .erase => s.putScan k .erase Config.eraseMax
    | some .writeFree => s.putScan k .writeFree Config.writeMax
    | none => s.scanFrom ks

/-- The scan goes on after a slot (R173). -/
def State.scanAfter (s : State) (k : Fin 16) : State := s.scanFrom (allSlots.drop (k.val + 1))

end Sys2Proof.Machine
end

