-- ==== Sys2Proof/Machine/Flags.lean ====
section
/-!
DEFINITION. The conditions the blocks own, which are the sources of the twenty restriction entries (R120):
each computed from the state of its owner by the owner's rule.
-/

namespace Sys2Proof.Machine

/-- DEMAND_LATE (R42). -/
def State.demandLate (s : State) : Bool := match s.stationOfRole .cab with
  | some e => decide (e.state = .late)
  | none => false

/-- DEMAND_PENALTY (R42). -/
def State.demandPenalty (s : State) : Bool := decide (s.demand.hold = .penalty)

/-- RADAR_STALE (R31). -/
def State.radarStale (s : State) : Bool := match s.stationOfRole .radar with
  | some e => !e.live
  | none => false

/-- Whether the mode is ACTIVE (R49). -/
def State.isActive (s : State) : Bool := decide (s.demand.mode = .active)

/-- A condition of an own configured axle's slide state, false outside ACTIVE (R72, R49). -/
def State.axleIn (s : State) (x : SlideState) : Bool := s.isActive && s.anyAxle (fun r => decide (r.state = x))

/-- CONVERTER_STALE (R31): with no active BOGIE table no axle is configured. -/
def State.converterStale (s : State) : Bool := ownAxles.any (fun i => s.configured i &&
  match s.converterOf i with
  | some e => !e.live
  | none => true)

/-- Some own configured axle's live converter reports a status (R31). -/
def State.converterReports (s : State) (x : ConverterStatus) : Bool := ownAxles.any (fun i => s.configured i &&
  match s.converterOf i with
  | some e => e.live && decide (e.lastStatus = x)
  | none => false)

/-- VALVE_STALE (R31). -/
def State.valveStale (s : State) : Bool := s.banks.active.isSome &&
  match s.valve with
  | some e => !e.live
  | none => true

/-- The present value of the source of an entry, by its number (R120). Entry 20's is always false. -/
def State.sourceValue (s : State) : Nat → Bool
  | 1 => s.demandLate
  | 2 => s.demandPenalty
  | 3 => s.demand.emergency
  | 4 => s.slide.refLost
  | 5 => s.radarStale
  | 6 => s.axleIn .unsensed
  | 7 => s.axleIn .isolated
  | 8 => s.axleIn .sliding
  | 9 => s.converterStale
  | 10 => s.converterReports .derated
  | 11 => s.converterReports .fault
  | 12 => s.valveStale
  | 13 => s.isActive && s.air.mismatch
  | 14 => s.isActive && s.air.exhausted
  | 15 => s.link.a.silent
  | 16 => s.link.b.silent
  | 17 => s.congested
  | 18 => s.banks.pendingAdoption
  | 19 => s.storeUnavailable
  | _ => false

end Sys2Proof.Machine
end

