-- ==== Sys2Proof/Machine/Clock.lean ====
section
/-!
DEFINITION. The block's clock: what a step does when no command waits (log 2). One tick is one byte time of 5
microseconds (R3); 200 make a millisecond of the time base (R194). While a completion or an expiry is due, one
of those due is put into the queue, which one is free (log 3); when none is due, the clock advances one tick and
the operations in progress count down.
-/

namespace Sys2Proof.Machine

/-! ### Counting down -/

/-- The clock one tick on (R3, R194). -/
def Clock.advance (c : Clock) : Clock :=
  if c.sub + 1 < Config.ticksPerMs then { c with sub := c.sub + 1 } else { c with sub := 0, time := c.time + 1 }

/-- A port one tick on: its transmission has one byte time less to go (R3). -/
def Port.tick (p : Port) : Port := { p with tx := p.tx.map (fun t => { t with left := t.left - 1 }) }

/-- A slot's header operations one tick on: the head runs, the rest are held (R166). -/
def tickOps : List HeaderOp → List HeaderOp
  | [] => []
  | op :: ops => { op with left := op.left - 1 } :: ops

/-- A slot one tick on (R166, R167). -/
def Slot.tick (x : Slot) : Slot := { x with ops := tickOps x.ops, erase := x.erase.map (fun n => n - 1) }

/-- The commit's operation one tick on; stage 3 is a header operation of the slot (R160). -/
def CommitOp.tick : CommitOp → CommitOp
  | .erase left => .erase (left - 1)
  | .cell k left => .cell k (left - 1)
  | .header => .header

/-- The recorder one tick on (R160, R173). -/
def Recorder.tick (h : Recorder) : Recorder :=
  { h with
    current := h.current.map (fun i => { i with op := i.op.map CommitOp.tick })
    scan := h.scan.map (fun x => { x with left := x.left - 1 }) }

/-! ### Completions that are due -/

/-- A command if a test holds. -/
def whenDue (b : Bool) (c : Instr) : List Instr := if b then [c] else []

/-- The completion of a port's transmission. -/
def Port.completions (p : Port) (name : PortId) : List Instr := match p.tx with
  | some t => whenDue (decide (t.left = 0)) (.transmissionComplete name)
  | none => []

/-- The command that reports a completed header operation (R160, R161, R166, R167). -/
def HeaderOpKind.completion (kind : HeaderOpKind) (k : Fin 16) : Instr := match kind with
  | .claim => .claimHeaderWriteComplete k
  | .commit => .commitHeaderWriteComplete
  | .guard => .protectHeaderWriteComplete k
  | .eraseBegin => .eraseHeaderWriteComplete k
  | .eraseEnd => .eraseHeaderWriteComplete k

/-- The completions of a slot's operations. -/
def Slot.completions (x : Slot) (k : Fin 16) : List Instr :=
  (match x.ops with
    | op :: _ => whenDue (decide (op.left = 0)) (op.kind.completion k)
    | [] => []) ++
  match x.erase with
  | some n => whenDue (decide (n = 0)) (.eraseComplete k)
  | none => []

/-- The completions of the recorder's own operations. -/
def Recorder.completions (h : Recorder) : List Instr :=
  (match h.current.bind (fun i => i.op) with
    | some (.erase left) => whenDue (decide (left = 0)) .commitEraseComplete
    | some (.cell _ left) => whenDue (decide (left = 0)) .recordCellWriteComplete
    | some .header => []
    | none => []) ++
  match h.scan with
  | some x => whenDue (decide (x.left = 0)) .scanOperationComplete
  | none => []

/-- The operations that complete on a tick. -/
def State.completions (s : State) : List Instr :=
  s.link.a.completions .a ++ s.link.b.completions .b ++
    allSlots.flatMap (fun k => (s.slot k).completions k) ++ s.hist.completions

/-! ### Expiries that are due -/

/-- The command of a timer whose expiry has come, if a test of its rule holds. -/
def expiry (now : Time) (t : Option Timer) (runs : Bool) (c : Instr) : List Instr := match t with
  | some x => whenDue (x.due now && runs) c
  | none => []

/-- The expiries of a station entry's timers (R27). -/
def Station.expiries (e : Station) (now : Time) : List Instr :=
  expiry now e.freshTimer (decide (e.state = .fresh)) (.stationFreshnessExpiry e.address) ++
    expiry now e.concealTimer (decide (e.state = .late)) (.stationConcealExpiry e.address)

/-- The expiries of a global axle's sample (R29). -/
def State.sampleExpiries (s : State) (g : Fin 12) : List Instr :=
  expiry s.now (s.sample g).freshTimer (decide ((s.sample g).state = .fresh)) (.axleFreshnessExpiry g) ++
    expiry s.now (s.sample g).concealTimer (decide ((s.sample g).state = .late)) (.axleConcealExpiry g)

/-- The expiries of an own axle's timers (R66, R112). -/
def State.axleExpiries (s : State) (i : Fin 3) : List Instr :=
  expiry s.now (s.axle i).allowance (decide ((s.axle i).state = .sliding)) (.allowanceTimerExpiry i) ++
    expiry s.now (s.out i).refresh s.isActive (.refreshTimerExpiry i.castSucc)

/-- The expiries of the sequencer's timers (R81 to R83). -/
def Air.expiries (a : Air) (now : Time) : List Instr :=
  expiry now a.dumpTimer (decide (a.state = .dump)) .dumpTimerExpiry ++
    expiry now a.holdTimer (decide (a.state = .hold)) .holdTimerExpiry ++
    expiry now a.stepTimer (decide (a.state = .reapply)) .stepTimerExpiry ++
    expiry now a.mismatchTimer true .mismatchTimerExpiry

/-- The twelve global axles of the samples. -/
def sampleAxles : List (Fin 12) := [0, 1, 2, 3, 4, 5, 6, 7, 8, 9, 10, 11]

/-- The timers whose expiry has come. -/
def State.expiries (s : State) : List Instr :=
  expiry s.now s.link.a.silenceTimer true (.silenceTimerExpiry .a) ++
    expiry s.now s.link.b.silenceTimer true (.silenceTimerExpiry .b) ++
    s.cls.stations.flatMap (fun e => e.expiries s.now) ++
    sampleAxles.flatMap s.sampleExpiries ++
    expiry s.now s.demand.releaseTimer (decide (s.demand.app = .releasing)) .releaseConfirmExpiry ++
    expiry s.now s.slide.refTimer true .referenceLostExpiry ++
    ownAxles.flatMap s.axleExpiries ++
    s.air.expiries s.now ++
    expiry s.now s.blend.handover s.isActive .handoverTimerExpiry ++
    expiry s.now s.blend.pressure.refresh s.isActive (.refreshTimerExpiry 3)

/-! ### The tick -/

/-- The events that are due. -/
def State.dueEvents (s : State) : List Instr := s.completions ++ s.expiries

/-- The state one tick on (R3, R194). -/
def State.advance (s : State) : State :=
  let s1 := s.withClock s.clock.advance
  let s2 := s1.withLink { s1.link with a := s1.link.a.tick, b := s1.link.b.tick }
  let s3 := s2.withStore { s2.store with slots := s2.store.slots.map Slot.tick }
  s3.withHist s3.hist.tick

/-- One of two or more events that are due, at a free place among them (log 3). -/
def State.chooseDue (s : State) (c d : Instr) (rest : List Instr) : State :=
  let events := c :: d :: rest
  (s.withClock { s.clock with draws := s.clock.draws + 1 }).withPending
    [events.getD (Config.eventPlace s.clock.draws % events.length) c]

/-- What the block does while no command waits (log 2): it takes up an event that is due, or its clock
advances. -/
def State.tick (s : State) : State := match s.dueEvents with
  | [] => s.advance
  | [c] => s.withPending [c]
  | c :: d :: rest => s.chooseDue c d rest

end Sys2Proof.Machine
end

