-- ==== Sys2Proof/Machine/Operands.lean ====
section
/-!
DEFINITION. Operand forms: the frames that the commands stand for (R190, R191), a frame read from the bytes
received (R4), 2-byte operands, and the form of a reply (R177, R178).
-/

namespace Sys2Proof.Machine

/-! ### Operands on the wire -/

/-- The bytes of a 2-byte operand (R189). -/
def word16 (x : BitVec 16) : List Byte := be16 x.toNat

/-- A 2-byte operand read (R189). -/
def readWord (hi lo : Byte) : BitVec 16 := BitVec.ofNat 16 (rd16 hi lo)

/-- A 4-byte operand read (R189). -/
def readLong (a b c d : Byte) : BitVec 32 := BitVec.ofNat 32 ((rd16 a b) * 65536 + rd16 c d)

/-- A frame with a head, of a kind and a payload. -/
def headFrame (h : FrameHead) (kind : Byte) (payload : List Byte) : Frame :=
  Frame.sealed kind h.dest h.src h.seq payload

/-- The frame of DEMAND (R190). -/
def demandFrame (h : FrameHead) (service independent : BitVec 16) (flags : Byte) : Frame :=
  headFrame h kindDemand (word16 service ++ word16 independent ++ [flags])

/-- One sample on the wire (R190). -/
def sampleBytes (x : SpeedSample) : List Byte := [x.axle] ++ word16 x.speed ++ [x.quality]

/-- The frame of AXLE_SPEED (R190). -/
def speedFrame (h : FrameHead) (samples : List SpeedSample) : Frame :=
  headFrame h kindAxleSpeed (samples.flatMap sampleBytes)

/-- The frame of GROUND_SPEED (R190). -/
def groundFrame (h : FrameHead) (speed : BitVec 16) (quality : Byte) : Frame :=
  headFrame h kindGroundSpeed (word16 speed ++ [quality])

/-- The frame of EFFORT_REPORT (R190). -/
def effortReportFrame (h : FrameHead) (axle : Byte) (effort : BitVec 16) (status : Byte) : Frame :=
  headFrame h kindEffortReport ([axle] ++ word16 effort ++ [status])

/-- The frame of PRESSURE_REPORT (R190). -/
def pressureReportFrame (h : FrameHead) (bogie : Byte) (pressure : BitVec 16) (status : Byte) : Frame :=
  headFrame h kindPressureReport ([bogie] ++ word16 pressure ++ [status])

/-- The frame of a MGMT_REQUEST (R190): the 5-byte request head, then the parameters. -/
def requestFrame (h : ReqHead) (code : Byte) (params : List Byte) : Frame :=
  Frame.sealed kindRequest h.dest h.src h.seq
    ([code] ++ word16 h.tag ++ [h.scopeKind, h.scopeNumber] ++ params)

/-! ### A frame read from bytes -/

/-- The samples of an AXLE_SPEED payload, none where its length is no multiple of 4. -/
def parseSamples : List Byte → Option (List SpeedSample)
  | [] => some []
  | a :: b :: c :: q :: rest => match parseSamples rest with
    | some xs => some (⟨a, readWord b c, q⟩ :: xs)
    | none => none
  | _ => none

/-- The frame of received bytes: the five header fields, the payload, the last two bytes the CRC (R190).
The port's checks come first (R4). -/
def readFrame : List Byte → Option Frame
  | k :: d :: src :: q :: _ :: rest =>
    let n := rest.length - 2
    some ⟨k, d, src, q, rest.take n, readWord (rest.getD n 0) (rest.getD (n + 1) 0)⟩
  | _ => none

/-- What the port checks make of received bytes (R4). -/
inductive Checked where
  | lengthReject
  | crcReject
  | frame (f : Frame)
deriving DecidableEq, Repr

/-- The four checks of R4 in order. -/
def checkArrival (bytes : List Byte) : Checked :=
  let n := bytes.length
  if n < 7 ∨ 63 < n then .lengthReject
  else if crc16 (bytes.take (n - 2)) ≠ readWord (bytes.getD (n - 2) 0) (bytes.getD (n - 1) 0) then .crcReject
  else if 56 < (bytes.getD 4 0).toNat then .lengthReject
  else if n ≠ (bytes.getD 4 0).toNat + 7 then .lengthReject
  else match readFrame bytes with
    | some f => .frame f
    | none => .lengthReject

/-! ### Replies -/

/-- The reply status (R178), in the order of the codes (R190). -/
inductive Status where
  | done
  | busy
  | refused
  | invalid
  | sequence
  | noCursor
deriving DecidableEq, Repr

/-- The code of a reply status (R190). -/
def Status.code : Status → Byte
  | .done => 0
  | .busy => 1
  | .refused => 2
  | .invalid => 3
  | .sequence => 4
  | .noCursor => 5

/-- A reply: its status and result data (R177). -/
structure Reply where
  status : Status
  data : List Byte
deriving DecidableEq, Repr

/-- What a request leaves: the state, and its reply. -/
abbrev Taken := State × Reply

/-- A request taken, with its result data. -/
def done (s : State) (data : List Byte) : Taken := (s, ⟨.done, data⟩)

/-- A request refused, with no result data. -/
def refuse (s : State) (status : Status) : Taken := (s, ⟨status, []⟩)

/-- A set of numbered things as a 4-byte mask, the first of a list being bit 1 (R191). -/
def maskOf : List Bool → BitVec 32 := fun l => BitVec.ofNat 32 (2 * packBits l)

end Sys2Proof.Machine
end

