-- ==== Sys2Proof/Machine/Notices.lean ====
section
/-!
DEFINITION. The pending-notice set (R184) and its offering to the notice side (R185, R186).
-/

namespace Sys2Proof.Machine

/-- Whether a notice kind is enabled (R183). -/
def NoticeEnables.on (e : NoticeEnables) : NoticeKind → Bool
  | .restriction => e.restriction
  | .governing => e.governing
  | .incident => e.incident
  | .mode => e.mode

/-- A notice joins the tail of the set, or replaces the value and time of the notice of its subject,
which keeps its place (R184). -/
def joinNotice (x : Notice) : List Notice → List Notice
  | [] => [x]
  | y :: ys => if y.kind = x.kind ∧ y.subject = x.subject then x :: ys else y :: joinNotice x ys

/-- The pending notices replaced. -/
def State.putNotices (s : State) (l : List Notice) : State := s.withMgmt { s.mgmt with notices := l }

/-- A notice placed by its owner (R184); the placement calls for an offering (R185). -/
def State.placeNotice (s : State) (kind : NoticeKind) (subject : Byte) (value : BitVec 32) : State :=
  if s.mgmt.noticeAddress ≠ 0 ∧ s.mgmt.enables.on kind = true then
    (s.putNotices (joinNotice ⟨kind, subject, value, s.now⟩ s.mgmt.notices)).callOffer
  else s

/-- The NOTICE frame of a notice (R186). -/
def State.noticeFrame (s : State) (x : Notice) : Orig :=
  ⟨kindNotice, s.mgmt.noticeAddress, [x.kind.code, x.subject] ++ be32 x.value ++ be32 x.time⟩

/-- The head notice is offered to the notice side: none where the set is empty or the queue does not take
it (R6, R185). -/
def State.offerNotice (s : State) : Option State :=
  match s.mgmt.notices with
  | [] => none
  | x :: xs =>
    if (s.port s.mgmt.noticeSide).takesNotice then
      some ((s.putNotices xs).joinForward s.mgmt.noticeSide (.originated (s.noticeFrame x)))
    else none

/-- The offering called for has been made. -/
def State.endOffer (s : State) : State := s.withWork { s.work with offerDue := false }

end Sys2Proof.Machine
end

