-- ==== Sys2Proof/Machine/Restrict.lean ====
section
/-!
DEFINITION. The restriction table and arbiter: condition hand-overs (R121), pending and edges (R122 to
R124), governing (R126, R127), the actions in force (R128), and the settling of what an event leaves to be
handed on (log 7).
-/

namespace Sys2Proof.Machine

/-! ### Pending and edges -/

/-- The pending state of an entry (R122). -/
def Entry.computed (e : Entry) : Bool := (e.condition != e.invert) || e.force

/-- Whether an edge to a pending state matches the notice edge (R124). -/
def Entry.matchesEdge (e : Entry) (raised : Bool) : Bool := match e.edge with
  | .none => false
  | .raise => raised
  | .clear => !raised
  | .both => true

/-- The flag byte of a PENDING record (section 11.4), latched as after item 3 of R123. -/
def Entry.recordFlags (e : Entry) (latched sent : Bool) : Byte :=
  b8 (packBits [e.pending, e.condition, e.invert, e.force, latched, sent])

/-- An edge of an enabled entry (R123): the trigger, the PENDING record, the latched state with its
notice (R124). The entry is given with its new pending state. -/
def State.takeEdge (s : State) (i : Fin 20) (e : Entry) : State :=
  let sends := e.pending && e.trigger
  let latched := e.latched || e.matchesEdge e.pending
  let subject := b8 (i.val + 1)
  let s1 := if sends then s.sendTrigger .restriction subject else s
  let s2 := s1.writeRecord .restrict subject [0, e.recordFlags latched sends, e.path.code, b8 e.priority]
  let s3 := s2.putEntry i { e with latched := latched }
  if e.matchesEdge e.pending && !e.latched then
    s3.placeNotice .restriction subject (if e.pending then 1 else 0)
  else s3

/-- An entry takes new values: pending is recomputed, and a change of pending of an enabled entry is
taken as an edge (R122). -/
def State.updateEntry (s : State) (i : Fin 20) (e : Entry) : State :=
  let e1 := { e with pending := e.computed }
  if e1.pending ≠ e.pending ∧ e1.enable = true then (s.putEntry i e1).takeEdge i e1 else s.putEntry i e1

/-! ### Governing -/

/-- A path's limiter (R126). -/
def Restrict.limiter (r : Restrict) : Path → Nat
  | .electric => r.limElectric
  | .air => r.limAir
  | .report => 0

/-- A path's governing index (R126). -/
def Restrict.governing (r : Restrict) : Path → Nat
  | .electric => r.govElectric
  | .air => r.govAir
  | .report => 0

/-- Whether an entry may govern a path (R126). -/
def Entry.mayGovern (e : Entry) (path : Path) (limiter : Nat) : Bool :=
  e.enable && e.pending && decide (e.path = path) && decide (limiter < e.priority)

/-- The governing entry among the entries still to be seen, the first of which has number k: the highest
priority, and among equals the highest number (R126). `best` is the number and priority found so far. -/
def chooseGoverning (path : Path) (limiter : Nat) : List Entry → Nat → Nat × Nat → Nat
  | [], _, best => best.1
  | e :: es, k, best =>
    chooseGoverning path limiter es (k + 1)
      (if e.mayGovern path limiter ∧ best.2 ≤ e.priority then (k, e.priority) else best)

/-- The governing index a path should have (R126). -/
def Restrict.computeGov (r : Restrict) (path : Path) : Nat :=
  chooseGoverning path (r.limiter path) r.entries.toList 1 (0, 0)

/-- The action value of an entry, by its number; none for 0 (R128). -/
def Restrict.action (r : Restrict) (k : Nat) : Option Nat := match k with
  | 0 => none
  | k + 1 => if h : k < 20 then some (r.entries.get ⟨k, h⟩).action else none

/-- The action value applied as a GOVERNING record holds it (R133). -/
def Restrict.applied (r : Restrict) (path : Path) (k : Nat) : List Byte := match r.action k, path with
  | some v, _ => be16 v
  | none, .electric => be16 1000
  | none, _ => opt16 none

/-- A path's governing index replaced. -/
def Restrict.setGov (r : Restrict) (path : Path) (k : Nat) : Restrict := match path with
  | .electric => { r with govElectric := k }
  | .air => { r with govAir := k }
  | .report => r

/-- One path's governing index recomputed, and a change handed on (R127). -/
def State.recomputePath (s : State) (path : Path) : State :=
  let old := s.restrict.governing path
  let new := s.restrict.computeGov path
  if new = old then s
  else
    let s1 := s.withRestrict (s.restrict.setGov path new)
    let s2 := s1.writeRecord .restrict (b8 new)
      ([1, path.code, b8 old, b8 new, b8 (s.restrict.limiter path)] ++ s.restrict.applied path new)
    (s2.placeNotice .governing path.code (BitVec.ofNat 32 new)).callEval

/-- Both governing indices recomputed, ELECTRIC first (R127). -/
def State.recomputeGov (s : State) : State := (s.recomputePath .electric).recomputePath .air

/-! ### Hand-overs -/

/-- The condition of a numbered entry set to the value its source hands over; no edge is taken yet (R121). -/
def State.setCondition (s : State) (k : Nat) : State := match k with
  | 0 => s
  | i + 1 =>
    if h : i < 20 then s.putEntry ⟨i, h⟩ { s.entry ⟨i, h⟩ with condition := s.sourceValue (i + 1) } else s

/-- The change of pending of a numbered entry that its new condition brings (R121, R122). -/
def State.takeChange (s : State) (k : Nat) : State := match k with
  | 0 => s
  | i + 1 => if h : i < 20 then s.updateEntry ⟨i, h⟩ (s.entry ⟨i, h⟩) else s

/-- A hand-over of the sources of the entries named, taken whole (R121): every named entry's condition is set
to the value handed over, then the changes of pending are taken in ascending number, then the governing
indices are recomputed once. A source that an edge of this hand-over changes is a later hand-over's. -/
def State.handOver (s : State) (ks : List Nat) : State :=
  (ks.foldl State.takeChange (ks.foldl State.setCondition s)).recomputeGov

/-- Re: the action on the ELECTRIC path, 1000 for none (R128). -/
def State.re (s : State) : Nat := (s.restrict.action s.restrict.govElectric).getD 1000

/-- Ra: the action on the AIR path, none for no cap (R128). -/
def State.ra (s : State) : Option Nat := s.restrict.action s.restrict.govAir

/-! ### Settling -/

/-- Whether an owner's condition differs from what its entry last received. -/
def State.differs (s : State) (k : Fin 20) : Bool := s.sourceValue (k.val + 1) != (s.entry k).condition

/-- One thing an event has left to be handed on, in this order: a change of FORWARD_CONGESTED (R7), a
selection of an idle transmitter (R10), a notice of an offering called for (R185), a change of
STORE_UNAVAILABLE (R164); none when nothing is left (log 7). -/
def State.settleOne (s : State) : Option State :=
  if s.differs 16 then some (s.handOver [17])
  else match s.arbitrate .a with
    | some t => some t
    | none => match s.arbitrate .b with
      | some t => some t
      | none =>
        if s.work.offerDue && !s.work.inRequest then some (s.offerNotice.getD s.endOffer)
        else if s.differs 18 then some (s.handOver [19])
        else none

/-- Everything an event has left to be handed on, one thing after another, within a number of steps
(log 37). -/
def State.settleWithin : Nat → State → State
  | 0, s => s
  | fuel + 1, s => match s.settleOne with
    | none => s
    | some t => State.settleWithin fuel t

/-- Settling steps one event can need: notices placed and taken, frames started and congestion changes
(log 37). -/
def settleFuel : Nat := 200

/-- Everything an event has left to be handed on (log 7). -/
def State.settle (s : State) : State := State.settleWithin settleFuel s

/-- A hand-over, with what it leaves to be handed on. -/
def State.handOn (s : State) (ks : List Nat) : State := (s.handOver ks).settle

end Sys2Proof.Machine
end

