-- ==== Sys2Proof/Machine/Banks.lean ====
section
/-!
DEFINITION. The table banks: segments and their clamping (R137 to R140, R191), load states (R141), the
open load (R144), validation at ADOPT (R145), withdrawal (R149).
-/

namespace Sys2Proof.Machine

/-! ### Reading a segment -/

/-- A field of a segment: its width in bytes and its load range. -/
structure FieldRange where
  width : Nat
  lo : Nat
  hi : Nat
deriving DecidableEq, Repr

/-- The values a segment supplies, field by field, high byte first (R189, R191). -/
def readFields : List FieldRange → List Byte → List Nat
  | [], _ => []
  | r :: rs, bytes =>
    (bytes.take r.width).foldl (fun n b => n * 256 + b.toNat) 0 :: readFields rs (bytes.drop r.width)

/-- The values stored: each clamped to its load range (R137). -/
def clampFields : List FieldRange → List Nat → List Nat
  | r :: rs, v :: vs => clamp r.lo r.hi v :: clampFields rs vs
  | _, _ => []

/-- How many fields were clamped (R137): each value of a list is one field, the scale and the count of a timing set two
(DESIGN CHOICE, log 56). -/
def countClamped : List Nat → List Nat → Nat
  | v :: vs, w :: ws => (if v = w then 0 else 1) + countClamped vs ws
  | _, _ => 0

/-- The bytes of a segment's layout. -/
def layoutBytes (rs : List FieldRange) : Nat := (rs.map (fun r => r.width)).sum

/-- A point of the CURVE table: speed then cap (R138). -/
def pointRanges : List FieldRange := [⟨2, 0, 2000⟩, ⟨2, 0, 2000⟩]

/-- Eight points. -/
def eightPointRanges : List FieldRange :=
  pointRanges ++ pointRanges ++ pointRanges ++ pointRanges ++ pointRanges ++ pointRanges ++ pointRanges ++ pointRanges

/-- CURVE segment 0 (R138, R191). -/
def curveRanges : List FieldRange := ⟨1, 2, 16⟩ :: eightPointRanges

/-- BOGIE segment 0 without its flag (R139, R191). -/
def bogieRanges : List FieldRange :=
  [⟨1, 1, 3⟩, ⟨2, 0, 8000⟩, ⟨2, 0, 2000⟩, ⟨2, 0, 100⟩, ⟨2, 50, 600⟩, ⟨2, 50, 700⟩, ⟨2, 0, 600⟩, ⟨2, 1, 200⟩,
    ⟨2, 0, 500⟩]

/-- SUPERVISION segment 0 (R140, R191). A timing set, which R140's table lists in one row, is two fields here, its scale
and its count, each clamped and counted by itself (DESIGN CHOICE, log 56). -/
def supervisionRanges : List FieldRange :=
  [⟨1, 0, 3⟩, ⟨1, 0, 31⟩, ⟨1, 0, 3⟩, ⟨1, 0, 31⟩, ⟨2, 500, 30000⟩, ⟨2, 0, 60000⟩, ⟨2, 50, 5000⟩, ⟨2, 1, 200⟩,
    ⟨2, 10, 100⟩, ⟨2, 20, 1000⟩, ⟨2, 100, 10000⟩, ⟨2, 5, 200⟩, ⟨2, 20, 5000⟩, ⟨2, 100, 5000⟩, ⟨2, 5, 100⟩,
    ⟨2, 500, 30000⟩]

/-- The words of a band as a segment carries them: the fifth packs the confirm count and the cut factor
(R191); the words themselves are not clamped. -/
def bandWords : List FieldRange :=
  [⟨2, 0, 65535⟩, ⟨2, 0, 65535⟩, ⟨2, 0, 65535⟩, ⟨2, 0, 65535⟩, ⟨2, 0, 65535⟩, ⟨2, 0, 65535⟩]

/-- The fields of a band after unpacking: bound, creep_on, slip_on, creep_off, confirm count, cut factor,
restore step (R138). -/
def bandRanges : List FieldRange :=
  [⟨2, 0, 2000⟩, ⟨2, 1, 1000⟩, ⟨2, 1, 2000⟩, ⟨2, 0, 999⟩, ⟨2, 1, 8⟩, ⟨2, 0, 900⟩, ⟨2, 1, 1000⟩]

/-- The packed word of each band split: high four bits the confirm count, low twelve the cut factor (R191). -/
def unpackBands : List Nat → List Nat
  | a :: b :: c :: d :: w :: r :: rest => [a, b, c, d, w / 4096, w % 4096, r] ++ unpackBands rest
  | _ => []

/-- The curve points of a list of values. -/
def pointsOf : List Nat → List CurvePoint
  | v :: c :: rest => ⟨v, c⟩ :: pointsOf rest
  | _ => []

/-- The bands of a list of values. -/
def bandsOf : List Nat → List Band
  | a :: b :: c :: d :: k :: w :: r :: rest => ⟨a, b, c, d, k, w, r⟩ :: bandsOf rest
  | _ => []

/-- Elements written into a vector from an index on. -/
def writeFrom {α : Type} {n : Nat} (v : Vec α n) (k : Nat) : List α → Vec α n
  | [] => v
  | x :: xs => writeFrom (if h : k < n then v.set ⟨k, h⟩ x else v) (k + 1) xs

/-- A BOGIE table of its values and its flag (R139). -/
def bogieOf (l : List Nat) (radarUse : Bool) : BogieTable :=
  ⟨l.getD 0 0, l.getD 1 0, l.getD 2 0, l.getD 3 0, l.getD 4 0, l.getD 5 0, l.getD 6 0, l.getD 7 0, l.getD 8 0,
    radarUse⟩

/-- A SUPERVISION table of its values (R140). -/
def supervisionOf (l : List Nat) : Supervision :=
  ⟨l.getD 0 0, l.getD 1 0, l.getD 2 0, l.getD 3 0, l.getD 4 0, l.getD 5 0, l.getD 6 0, l.getD 7 0, l.getD 8 0,
    l.getD 9 0, l.getD 10 0, l.getD 11 0, l.getD 12 0, l.getD 13 0, l.getD 14 0, l.getD 15 0⟩

/-- The ranges of four bands as one segment carries them (R191). -/
def fourBandWords : List FieldRange := bandWords ++ bandWords ++ bandWords ++ bandWords

/-- The ranges of four bands after unpacking. -/
def fourBandRanges : List FieldRange := bandRanges ++ bandRanges ++ bandRanges ++ bandRanges

/-- Segments of a table (R136). -/
def TableId.segments : TableId → Nat
  | .curve => 2
  | .bogie => 1
  | .bands => 2
  | .supervision => 1

/-- The length of a segment (R191). -/
def TableId.segmentBytes (t : TableId) (segment : Nat) : Nat := match t with
  | .curve => if segment = 0 then layoutBytes curveRanges else layoutBytes eightPointRanges
  | .bogie => layoutBytes bogieRanges + 1
  | .bands => layoutBytes fourBandWords
  | .supervision => layoutBytes supervisionRanges

/-- The values a segment supplies, field by field, the radar-use flag apart (R191). -/
def TableId.supplied (t : TableId) (segment : Nat) (bytes : List Byte) : List Nat := match t with
  | .curve => readFields (if segment = 0 then curveRanges else eightPointRanges) bytes
  | .bogie => readFields bogieRanges bytes
  | .bands => unpackBands (readFields fourBandWords bytes)
  | .supervision => readFields supervisionRanges bytes

/-- The load ranges of a segment's fields (R138 to R140). -/
def TableId.ranges (t : TableId) (segment : Nat) : List FieldRange := match t with
  | .curve => if segment = 0 then curveRanges else eightPointRanges
  | .bogie => bogieRanges
  | .bands => fourBandRanges
  | .supervision => supervisionRanges

/-- The values of a segment as stored (R137). -/
def TableId.stored (t : TableId) (segment : Nat) (bytes : List Byte) : List Nat :=
  clampFields (t.ranges segment) (t.supplied segment bytes)

/-- The number of a segment's fields that are clamped (R137), the scale and the count of a timing set counted apart
(log 56). -/
def TableId.clamped (t : TableId) (segment : Nat) (bytes : List Byte) : Nat :=
  countClamped (t.supplied segment bytes) (t.stored segment bytes)

/-- The radar-use flag of a BOGIE segment: set when its value is not 0 (R137). -/
def radarFlag (bytes : List Byte) : Bool := decide (bytes.getD 17 0 ≠ 0)

/-- A staged table cleared to 0 (R141). -/
def Tables.clear (x : Tables) (t : TableId) : Tables := match t with
  | .curve => { x with curve := Curve.cleared }
  | .bogie => { x with bogie := BogieTable.cleared }
  | .bands => { x with bands := Vec.fill 8 Band.cleared }
  | .supervision => { x with supervision := Supervision.cleared }

/-- A segment's stored values written into a table (R136). -/
def Tables.write (x : Tables) (t : TableId) (segment : Nat) (l : List Nat) (radarUse : Bool) : Tables := match t with
  | .curve =>
    if segment = 0 then { x with curve := ⟨l.getD 0 0, writeFrom x.curve.points 0 (pointsOf l.tail)⟩ }
    else { x with curve := { x.curve with points := writeFrom x.curve.points 8 (pointsOf l) } }
  | .bogie => { x with bogie := bogieOf l radarUse }
  | .bands => { x with bands := writeFrom x.bands (4 * segment) (bandsOf l) }
  | .supervision => { x with supervision := supervisionOf l }

/-! ### Load states -/

/-- A staged table's load state. -/
def LoadStates.get (x : LoadStates) : TableId → LoadState
  | .curve => x.curve
  | .bogie => x.bogie
  | .bands => x.bands
  | .supervision => x.supervision

/-- A staged table's load state replaced. -/
def LoadStates.set (x : LoadStates) (t : TableId) (v : LoadState) : LoadStates := match t with
  | .curve => { x with curve := v }
  | .bogie => { x with bogie := v }
  | .bands => { x with bands := v }
  | .supervision => { x with supervision := v }

/-- The four tables in order. -/
def allTables : List TableId := [.curve, .bogie, .bands, .supervision]

/-- The open load is cancelled: its table becomes INCOMPLETE (R141, R144). -/
def Banks.cancelLoad (x : Banks) : Banks := match x.openLoad with
  | some t => { x with states := x.states.set t .incomplete, openLoad := none }
  | none => x

/-- A pending adoption is withdrawn, and a fall of ADOPTION_DEFERRED handed over (R149). -/
def State.withdraw (s : State) : State :=
  if s.banks.pendingAdoption then (s.withBanks { s.banks with pendingAdoption := false }).handOn [18] else s

/-- Segment 0 starts a load (step 4 of R142). -/
def Banks.startLoad (x : Banks) (t : TableId) (bytes : List Byte) : Banks :=
  { x with
    staged := (x.staged.clear t).write t 0 (t.stored 0 bytes) (radarFlag bytes)
    states := x.states.set t (if t.segments = 1 then .loaded else .loading)
    openLoad := if t.segments = 1 then none else some t }

/-- Segment 1 completes the open load (R143). -/
def Banks.endLoad (x : Banks) (t : TableId) (bytes : List Byte) : Banks :=
  { x with
    staged := x.staged.write t 1 (t.stored 1 bytes) (radarFlag bytes)
    states := x.states.set t .loaded
    openLoad := none }

/-! ### Validation -/

/-- A failure of ADOPT (R145). -/
inductive AdoptFailure where
  | notReady
  | notComplete
  | curveOrder
  | pressureOrder
  | baseOrder
  | bandOrder
  | bandLast
  | bandHysteresis
deriving DecidableEq, Repr

/-- A failure with its table and index (R145). -/
structure AdoptRefusal where
  failure : AdoptFailure
  table : TableId
  index : Option Nat
deriving DecidableEq, Repr

/-- The first index, from k on, whose number is at or below the number before it (R145). -/
def firstDisorder : Nat → List Nat → Option Nat
  | k, x :: y :: rest => if y ≤ x then some k else firstDisorder (k + 1) (y :: rest)
  | _, _ => none

/-- The checks of the CURVE table (R145). -/
def Curve.check (c : Curve) : Option AdoptRefusal :=
  (firstDisorder 1 ((c.points.toList.take c.count).map (fun p => p.speed))).map (fun k => ⟨.curveOrder, .curve, some k⟩)

/-- The checks of the BOGIE table (R145). -/
def BogieTable.check (t : BogieTable) : Option AdoptRefusal :=
  if t.pMax < t.pIndepFull ∨ t.pEmerg < t.pMax then some ⟨.pressureOrder, .bogie, none⟩
  else if t.pMax ≤ t.pBase then some ⟨.baseOrder, .bogie, none⟩
  else none

/-- The checks of the BANDS table (R145). -/
def checkBands (bands : Vec Band 8) : Option AdoptRefusal :=
  match firstDisorder 1 (bands.toList.map (fun b => b.bound)) with
  | some k => some ⟨.bandOrder, .bands, some k⟩
  | none =>
    if (bands.get 7).bound ≠ 2000 then some ⟨.bandLast, .bands, none⟩
    else (bands.toList.findIdx? (fun b => decide (b.creepOn ≤ b.creepOff))).map
      (fun k => ⟨.bandHysteresis, .bands, some k⟩)

/-- A staged table's checks (step 4 of R145). -/
def Tables.check (x : Tables) : TableId → Option AdoptRefusal
  | .curve => x.curve.check
  | .bogie => x.bogie.check
  | .bands => checkBands x.bands
  | .supervision => none

/-- The first failure of the LOADED staged tables, in table order (step 4 of R145). -/
def Banks.validate (x : Banks) : Option AdoptRefusal :=
  allTables.findSome? (fun t => if x.states.get t = .loaded then x.staged.check t else none)

/-- The tables an adoption makes active: each LOADED staged table, and the active copy of the others
(R147). With no active bank every table is LOADED (R145). -/
def Banks.adoptTables (x : Banks) : Tables :=
  let old := x.active.getD Tables.cleared
  { curve := if x.states.curve = .loaded then x.staged.curve else old.curve
    bogie := if x.states.bogie = .loaded then x.staged.bogie else old.bogie
    bands := if x.states.bands = .loaded then x.staged.bands else old.bands
    supervision := if x.states.supervision = .loaded then x.staged.supervision else old.supervision }

/-- The banks after an adoption (item 1 of R147). -/
def Banks.adopted (x : Banks) : Banks :=
  { active := some x.adoptTables
    staged := Tables.cleared
    states := LoadStates.untouched
    openLoad := none
    pendingAdoption := false
    adoptions := bump x.adoptions }

end Sys2Proof.Machine
end

