-- ==== Sys2Proof/Machine/Air.lean ====
section
/-!
DEFINITION. The bogie air sequencer (R77 to R87) and cylinder supervision (R88 to R90).
-/

namespace Sys2Proof.Machine

/-- The pressure output a state gives from a setpoint (R77). -/
def Air.output (a : Air) (pSet : Nat) : Nat := match a.state with
  | .normal => pSet
  | .dump => 0
  | .hold => min a.held pSet
  | .reapply => min a.reapply pSet

/-- The air sequencer replaced. -/
def State.putAir (s : State) (a : Air) : State := s.withAir a

/-- The AIR record of a change of state (R86): old and new state, standing p_set, the p_out the new state
gives, dump time used. -/
def State.recordAir (s : State) (old : AirState) (a : Air) : State :=
  s.writeRecord .air s.bogieByte
    ([old.code, a.state.code] ++ be16 a.pSet ++ be16 (a.output a.pSet) ++ be16 a.used)

/-- The sequencer takes an event outside an evaluation and hands on: the AIR record of a change of state,
a change of DUMP_EXHAUSTED, an evaluation when its state changed (R86). -/
def State.moveAir (s : State) (a : Air) : State :=
  let s1 := s.putAir a
  let s2 := if a.state = s.air.state then s1 else s1.recordAir s.air.state a
  (s2.handOn [14]).callEvalIf (decide (a.state ≠ s.air.state))

/-- T_hold and T_step of the active table (R85). -/
def State.tSlide (s : State) : Nat := match s.banks.active with
  | none => 0
  | some b => b.supervision.tSlide

/-- The dump time used with the current dump added, at most the budget (R80, R81; log 24). -/
def Air.spent (a : Air) (now : Time) (budget : Nat) : Nat := min (a.used + since now a.dumpStart) budget

/-- The exhaustion (R81): the whole budget used, EXHAUSTED set, NORMAL, no sequencer timer running. -/
def Air.exhaust (a : Air) (budget : Nat) : Air :=
  { a with
    state := .normal, exhausted := true, used := budget, dumpTimer := none, holdTimer := none,
    stepTimer := none }

/-- An entry to SLIDING in NORMAL, HOLD or REAPPLY (R79, R82, R83; log 33). -/
def Air.tryDump (a : Air) (now : Time) (budget : Nat) : Air :=
  if a.exhausted = true ∨ a.pSet = 0 then { a with state := .normal, holdTimer := none, stepTimer := none }
  else if a.used < budget then
    { a with
      state := .dump, dumpStart := now, dumpTimer := some ⟨now, budget - a.used⟩, holdTimer := none,
      stepTimer := none, mismatchTimer := none }
  else a.exhaust budget

/-- DUMP is left for HOLD (R80). -/
def Air.toHold (a : Air) (now : Time) (budget held tHold : Nat) : Air :=
  { a with
    state := .hold, used := a.spent now budget, dumpTimer := none, held := held,
    holdTimer := some ⟨now, tHold⟩ }

/-- The held level a dump ends at (R80). -/
def State.heldLevel (s : State) : Nat := match s.valve with
  | some e => if e.state = .fresh ∧ s.air.status = .ok then min s.air.measured s.air.pSet else 0
  | none => 0

/-- The sequencer after a slide hand-on (R79, R80, R82, R83): whether an own axle entered SLIDING, and
whether any is SLIDING now. -/
def State.airAfterSlide (s : State) (entered sliding : Bool) : Air := match s.air.state with
  | .dump => if sliding then s.air else s.air.toHold s.now s.dumpBudget s.heldLevel s.tSlide
  | .normal => if entered && sliding then s.air.tryDump s.now s.dumpBudget else s.air
  | .hold => if entered && sliding then s.air.tryDump s.now s.dumpBudget else s.air
  | .reapply => if entered && sliding then s.air.tryDump s.now s.dumpBudget else s.air

/-- The slide hand-on to the sequencer, which runs in ACTIVE mode alone (R78). -/
def State.handSlide (s : State) (entered : Bool) : State :=
  if s.isActive then
    s.moveAir (s.airAfterSlide entered (s.anyAxle (fun r => decide (r.state = .sliding))))
  else s

/-- The sequencer at the expiry of the dump timer (R81). -/
def Air.onDumpExpiry (a : Air) (budget : Nat) : Air :=
  if a.state = .dump then a.exhaust budget else a

/-- The sequencer at the expiry of the hold timer (R82). -/
def Air.onHoldExpiry (a : Air) (now : Time) (tStep : Nat) : Air :=
  if a.state = .hold then
    if a.held < a.pSet then
      { a with state := .reapply, reapply := a.held, holdTimer := none, stepTimer := some ⟨now, tStep⟩ }
    else { a with state := .normal, holdTimer := none }
  else a

/-- The reapply level one step higher (R83). -/
def Air.stepped (a : Air) (step : Nat) : Nat := min (a.reapply + step) 1000

/-- The sequencer at the expiry of the step timer (R83). -/
def Air.onStepExpiry (a : Air) (now : Time) (step tStep : Nat) : Air :=
  if a.state = .reapply then
    if a.pSet ≤ a.stepped step then { a with state := .normal, reapply := a.stepped step, stepTimer := none }
    else { a with reapply := a.stepped step, stepTimer := some ⟨now, tStep⟩ }
  else a

/-- The sequencer takes a new standing p_set at stage 8 (R84). -/
def Air.takeSetpoint (a : Air) (now : Time) (budget pSet : Nat) : Air :=
  let a1 := { a with pSet := pSet }
  if pSet = 0 then
    { a1 with
      state := .normal
      used := if a.state = .dump then a.spent now budget else a.used
      dumpTimer := none, holdTimer := none, stepTimer := none }
  else if a.state = .reapply ∧ pSet ≤ a.reapply then { a1 with state := .normal, stepTimer := none }
  else a1

/-! ### Cylinder supervision -/

/-- Whether a report judged in NORMAL matches p_out (R89). -/
def pressureMatches (status : ValveStatus) (measured pOut tolerance : Nat) : Bool :=
  decide (status = .ok) && decide (measured ≤ pOut + tolerance) && decide (pOut ≤ measured + tolerance)

/-- A judged report acts on the mismatch timer and CYLINDER_MISMATCH (R89). -/
def Air.judge (a : Air) (now : Time) (tMismatch : Nat) (agrees : Bool) : Air :=
  match a.mismatch, a.mismatchTimer, agrees with
  | false, none, true => a
  | false, none, false => { a with mismatchTimer := some ⟨now, tMismatch⟩ }
  | false, some _, true => { a with mismatchTimer := none }
  | false, some _, false => a
  | true, _, true => { a with mismatch := false }
  | true, _, false => a

/-- A PRESSURE_REPORT of bogie p at the supervision (R88): the measured pressure and status in every mode,
the judgement in ACTIVE mode with the sequencer in NORMAL. -/
def State.takePressure (s : State) (measured : Nat) (status : ValveStatus) : State :=
  let a := { s.air with measured := measured, status := status }
  match s.banks.active with
  | none => s.putAir a
  | some b =>
    if s.isActive ∧ a.state = .normal then
      (s.putAir (a.judge s.now b.supervision.tMismatch
        (pressureMatches status measured s.blend.pressure.content.pressure b.supervision.tolerance))).handOn [13]
    else s.putAir a

end Sys2Proof.Machine
end

