-- ==== Sys2Proof/Machine/Slide.lean ====
section
/-!
DEFINITION. The reference speed (R54 to R58), slip, creep and bands (R59, R60), and the slide records
(R61 to R72).
-/

namespace Sys2Proof.Machine

/-! ### The reference speed -/

/-- The twelve global axles in order. -/
def allAxles : List (Fin 12) := [0, 1, 2, 3, 4, 5, 6, 7, 8, 9, 10, 11]

/-- Whether an own configured axle is excluded from the candidate (R55). -/
def State.excluded (s : State) (g : Fin 12) : Bool := match s.ownIndex g.val with
  | some i => s.configured i && decide ((s.axle i).state = .isolated ∨ (s.axle i).state = .unsensed)
  | none => false

/-- Whether a global axle's speed counts in the candidate (R55). -/
def State.counted (s : State) (g : Fin 12) : Bool :=
  decide ((s.sample g).state = .fresh) && !s.excluded g

/-- The axles counted in the candidate. -/
def State.countedAxles (s : State) : List (Fin 12) := allAxles.filter s.counted

/-- Whether the radar counts in the candidate (R55). -/
def State.radarCounted (s : State) : Bool := match s.banks.active, s.stationOfRole .radar with
  | some b, some e => b.bogie.radarUse && decide (e.state = .fresh)
  | _, _ => false

/-- The speeds that qualify for the candidate (R55). -/
def State.candidates (s : State) : List Nat :=
  s.countedAxles.map (fun g => (s.sample g).lastGood) ++ (if s.radarCounted then [s.slide.radarSpeed] else [])

/-- The largest of a list of speeds, none of an empty one. -/
def largest : List Nat → Option Nat
  | [] => none
  | x :: xs => match largest xs with
    | none => some x
    | some y => some (max x y)

/-- A_fall of the active SUPERVISION table, or 200 while there is none (R56). -/
def State.aFall (s : State) : Nat := match s.banks.active with
  | none => Config.aFallDefault
  | some b => b.supervision.aFall

/-- Time since the last reference update, capped (R56). -/
def State.refDt (s : State) : Nat := min (since s.now s.slide.lastUpdate) 65535

/-- Vref and the accumulator after an update (R56). -/
def Slide.referred (x : Slide) (c fallen : Nat) : Slide :=
  if x.vref ≤ c then { x with vref := c, acc := 0 }
  else
    let a := x.acc + fallen
    { x with vref := max c (x.vref - a / 1000), acc := a - 1000 * (a / 1000) }

/-- The REFERENCE_LOST timer set from an instant, while a SUPERVISION table is active (R57). -/
def State.refTimerFrom (s : State) (t : Time) : Option Timer :=
  s.banks.active.map (fun b => ⟨t, b.supervision.tRefLost⟩)

/-- The SPEED record of an update, when its interval has passed (R58). -/
def State.recordSpeed (s : State) (c : Nat) (radar : Bool) (axles : Nat) : State := match s.banks.active with
  | none => s
  | some b =>
    if b.supervision.speedInterval ≤ since s.now s.slide.lastSpeedRecord then
      (s.withSlide { s.slide with lastSpeedRecord := s.now }).writeRecord .speed s.bogieByte
        (be16 s.slide.vref ++ be16 s.slide.acc ++ be16 c ++ be16 s.slide.radarSpeed ++ [flag radar, b8 axles])
    else s

/-- A reference update (R54 to R58): with no candidate nothing changes; else Vref, the timer, the SPEED
record, the change of REFERENCE_LOST (item 1 of R71), and an evaluation (item 5). -/
def State.updateReference (s : State) : State := match largest s.candidates with
  | none => s
  | some c =>
    let x := s.slide.referred c (s.aFall * s.refDt)
    let s1 := s.withSlide
      { x with lastUpdate := s.now, refLost := false, refTimer := s.refTimerFrom s.now }
    ((s1.recordSpeed c s.radarCounted s.countedAxles.length).handOn [4]).callEval

/-! ### Slip, creep and bands -/

/-- The slip of a sample (R59). -/
def slipOf (vref v : Nat) : Nat := vref - v

/-- The creep of a sample, 0 below V_min (R59). -/
def creepOf (vref vMin v : Nat) : Nat := if vref < vMin then 0 else slipOf vref v * 1000 / vref

/-- The index of the first band whose bound is at or above a speed (R60). -/
def bandIndex (bands : Vec Band 8) (v : Nat) : Option Nat := bands.toList.findIdx? (fun b => decide (v ≤ b.bound))

/-- The first band whose bound is at or above a speed (R60). -/
def chooseBand (bands : Vec Band 8) (v : Nat) : Band :=
  (bands.toList.find? (fun b => decide (v ≤ b.bound))).getD Band.cleared

/-- What a sample gives (R60). -/
inductive Judgement where
  | indication
  | clear
  | neither
deriving DecidableEq, Repr

/-- The judgement of a sample at Vref of V_min or above (R60). -/
def Band.judge (b : Band) (slip creep : Nat) : Judgement :=
  if b.creepOn ≤ creep ∨ b.slipOn ≤ slip then .indication
  else if creep ≤ b.creepOff ∧ slip < b.slipOn then .clear
  else .neither

/-! ### The slide record -/

/-- The episode time with the current SLIDING period added (R64 to R66; log 24). -/
def SlideRecord.spent (r : SlideRecord) (now : Time) : Nat := min (r.episodeTime + since now r.periodStart) 30000

/-- Entry to SLIDING from CLEAR or SUSPECT: a new episode (R63). -/
def SlideRecord.beginSliding (r : SlideRecord) (b : Band) (tMax : Nat) (now : Time) : SlideRecord :=
  { r with
    state := .sliding, suspect := 0, factor := b.cut, episodeTime := 0, periodStart := now,
    episodes := bump r.episodes, allowance := some ⟨now, tMax⟩ }

/-- Re-entry to SLIDING from RECOVERING: the same episode, for the allowance that remains (R64). -/
def SlideRecord.resumeSliding (r : SlideRecord) (b : Band) (tMax : Nat) (now : Time) : SlideRecord :=
  { r with
    state := .sliding, factor := b.cut, periodStart := now, allowance := some ⟨now, tMax - r.episodeTime⟩ }

/-- SLIDING to ISOLATED (R66). -/
def SlideRecord.isolate (r : SlideRecord) (now : Time) : SlideRecord :=
  { r with state := .isolated, factor := 0, episodeTime := r.spent now, allowance := none }

/-- SLIDING to RECOVERING (R64, R65). -/
def SlideRecord.recover (r : SlideRecord) (now : Time) : SlideRecord :=
  { r with state := .recovering, episodeTime := r.spent now, allowance := none }

/-- One restore step in RECOVERING (R64, R65). -/
def SlideRecord.restore (r : SlideRecord) (b : Band) : SlideRecord :=
  if r.factor + b.restore < 1000 then { r with factor := r.factor + b.restore }
  else { r with state := .clear, factor := 1000 }

/-- The T_slide_max an episode is held to: for a SLIDING axle, whose allowance runs, the value its allowance
was started from, since a new T_slide_max applies from the next entry to SLIDING (R75); else the value of the
active table. -/
def SlideRecord.limit (r : SlideRecord) (tMax : Nat) : Nat := match r.allowance with
  | some t => r.episodeTime + t.len
  | none => tMax

/-- Whether the allowance is reached by the time in SLIDING (R66, R75). -/
def SlideRecord.reached (r : SlideRecord) (tMax : Nat) (now : Time) : Bool :=
  decide (r.limit tMax ≤ r.episodeTime + since now r.periodStart)

/-- What a sample is judged against: the band, T_slide_max as it stands, the time, whether Vref is below V_min, and
the judgement. -/
structure SampleView where
  band : Band
  tMax : Nat
  now : Time
  low : Bool
  given : Judgement
deriving DecidableEq, Repr

/-- A CLEAR axle takes its sample (R63, R65). -/
def SlideRecord.fromClear (r : SlideRecord) (v : SampleView) : SlideRecord :=
  if v.low then r
  else match v.given with
    | .indication =>
      if v.band.confirm ≤ 1 then r.beginSliding v.band v.tMax v.now else { r with state := .suspect, suspect := 1 }
    | .clear => r
    | .neither => r

/-- A SUSPECT axle takes its sample (R63, R65). -/
def SlideRecord.fromSuspect (r : SlideRecord) (v : SampleView) : SlideRecord :=
  if v.low then { r with state := .clear, suspect := 0 }
  else match v.given with
    | .indication =>
      if v.band.confirm ≤ r.suspect + 1 then r.beginSliding v.band v.tMax v.now
      else { r with suspect := r.suspect + 1 }
    | .clear => { r with state := .clear, suspect := 0 }
    | .neither => { r with state := .clear, suspect := 0 }

/-- A SLIDING axle takes its sample (R64, R65, R66). -/
def SlideRecord.fromSliding (r : SlideRecord) (v : SampleView) : SlideRecord :=
  if r.reached v.tMax v.now then r.isolate v.now
  else if v.low ∨ v.given = .clear then r.recover v.now
  else r

/-- A RECOVERING axle takes its sample (R64, R65): the records it passes through, since a re-entry with no
allowance left is isolated in the same event. -/
def SlideRecord.fromRecovering (r : SlideRecord) (v : SampleView) : List SlideRecord :=
  if v.low then [r.restore v.band]
  else match v.given with
    | .clear => [r.restore v.band]
    | .indication =>
      let r1 := r.resumeSliding v.band v.tMax v.now
      if v.tMax ≤ r.episodeTime then [r1, r1.isolate v.now] else [r1]
    | .neither => [r]

/-- An axle takes an evaluated sample (R62): the records it passes through. -/
def SlideRecord.onSample (r : SlideRecord) (v : SampleView) : List SlideRecord := match r.state with
  | .clear => [r.fromClear v]
  | .suspect => [r.fromSuspect v]
  | .sliding => [r.fromSliding v]
  | .recovering => r.fromRecovering v
  | .isolated => [r]
  | .unsensed => [{ r with state := .recovering, factor := v.band.cut }]

/-- An axle whose sample becomes STALE in ACTIVE mode (R69). The entry to ACTIVE (R52) takes it too for an axle whose
sample is STALE by then, with an episode time of 0 from CLEAR (DESIGN CHOICE, log 51). -/
def SlideRecord.onStale (r : SlideRecord) (now : Time) : SlideRecord := match r.state with
  | .clear => { r with state := .unsensed, factor := 0, suspect := 0, episodeTime := 0 }
  | .suspect => { r with state := .unsensed, factor := 0, suspect := 0, episodeTime := 0 }
  | .sliding =>
    { r with state := .unsensed, factor := 0, suspect := 0, episodeTime := r.spent now, allowance := none }
  | .recovering => { r with state := .unsensed, factor := 0, suspect := 0 }
  | .isolated => r
  | .unsensed => r

/-- The return of an axle from ISOLATED (R67), or of one that ceases to be configured (R75). -/
def SlideRecord.returned (r : SlideRecord) : SlideRecord :=
  { r with state := .clear, factor := 1000, suspect := 0, episodeTime := 0, allowance := none }

/-! ### Hand-on -/

/-- The AXLE record of a change of slide state (R71). -/
def State.recordAxle (s : State) (i : Fin 3) (old : SlideState) (r : SlideRecord) (speed : Nat) : State :=
  s.writeRecord .axle (b8 (s.globalAxle i).val)
    ([old.code, r.state.code] ++ be16 s.slide.vref ++ be16 speed ++ be16 r.lastCreep ++ be16 r.factor)

/-- An axle takes a new record; a change of state sends the SLIDING trigger of an entry to SLIDING and
writes the AXLE record (item 2 of R71). -/
def State.changeAxle (s : State) (i : Fin 3) (speed : Nat) (r : SlideRecord) : State :=
  let old := (s.axle i).state
  let s1 := s.putAxle i r
  if r.state = old then s1
  else
    let s2 := if r.state = .sliding ∧ s.hist.slidingTrigger = true
      then s1.sendTrigger .sliding (b8 (s.globalAxle i).val) else s1
    s2.recordAxle i old r speed

/-- The aggregates, the sequencer and the evaluation of a slide change (items 3 to 5 of R71). -/
def State.handAxles (s : State) (entered changed : Bool) : State :=
  ((s.handOn [6, 7, 8]).handSlide entered).callEvalIf changed

/-- One change of an own axle outside an arrival, handed on from item 2 of R71, with the axle's last good
speed in its AXLE record. -/
def State.singleAxle (s : State) (i : Fin 3) (r : SlideRecord) : State :=
  let old := s.axle i
  (s.changeAxle i (s.ownSample i).lastGood r).handAxles false
    (decide (r.state ≠ old.state) || decide (r.factor ≠ old.factor))

/-- The return of an axle from ISOLATED, and on to UNSENSED if its sample is STALE (R67, R69). Both AXLE records are
written here; the aggregates and the sequencer are handed on by the caller, once after both (DESIGN CHOICE, log 55 for
RESTORE_AXLE, log 52 for the entry to RELEASED). -/
def State.returnAxle (s : State) (i : Fin 3) : State :=
  let s1 := s.changeAxle i (s.ownSample i).lastGood (s.axle i).returned
  if (s.ownSample i).state = .stale ∧ s.isActive = true
    then s1.changeAxle i (s.ownSample i).lastGood ((s1.axle i).onStale s.now) else s1

/-- What an evaluated sample of an axle is judged against (R59, R60). -/
def State.view (s : State) (b : Tables) (v : Nat) : SampleView :=
  let band := chooseBand b.bands s.slide.vref
  let vMin := b.supervision.vMin
  { band := band
    tMax := b.supervision.tSlideMax
    now := s.now
    low := decide (s.slide.vref < vMin)
    given := band.judge (slipOf s.slide.vref v) (creepOf s.slide.vref vMin v) }

/-- One OK sample of an arrival evaluated (R62): whether the axle entered SLIDING is added to what is
known of the arrival so far, and whether its state or S changed. -/
def State.evaluateSample (x : State × Bool × Bool) (g : Fin 12) (v : Nat) : State × Bool × Bool :=
  let s := x.1
  match s.ownIndex g.val, s.banks.active with
  | some i, some b =>
    if s.isActive ∧ s.configured i = true then
      let r := s.axle i
      let r1 := { r with
        lastSlip := slipOf s.slide.vref v, lastCreep := creepOf s.slide.vref b.supervision.vMin v }
      let rs := r1.onSample (s.view b v)
      (rs.foldl (fun t q => t.changeAxle i v q) s,
        x.2.1 || (decide (r.state ≠ .sliding) && rs.any (fun q => decide (q.state = .sliding))),
        x.2.2 || rs.any (fun q => decide (q.state ≠ r.state) || decide (q.factor ≠ r.factor)))
    else x
  | _, _ => x

/-- A speed arrival's OK samples, after the reference update (R62, R71). -/
def State.evaluateSamples (s : State) (samples : List (Fin 12 × Nat)) : State :=
  let x := samples.foldl (fun y p => State.evaluateSample y p.1 p.2) (s, false, false)
  x.1.handAxles x.2.1 x.2.2

/-- A change of an own axle's sample state to STALE reaches its slide record (R69). -/
def State.loseAxle (s : State) (g : Fin 12) : State := match s.ownIndex g.val with
  | some i =>
    if s.isActive ∧ s.configured i = true then s.singleAxle i ((s.axle i).onStale s.now) else s
  | none => s

end Sys2Proof.Machine
end

