-- ==== Sys2Proof/Machine/Blend.lean ====
section
/-!
DEFINITION. The effective demand (R36) and the blend evaluation (R93 to R115): stages 1 to 9, the command
offers, the refresh and the BLEND record.
-/

namespace Sys2Proof.Machine

/-! ### The effective demand -/

/-- The effective service level L (R36). -/
def Demand.level (d : Demand) : Nat := match d.hold with
  | .none => d.lLast
  | .startHold => 1000
  | .held => d.lLast
  | .penalty => 1000

/-- The effective independent level I (R36). -/
def Demand.independent (d : Demand) : Nat := d.iLast

/-- Whether the bogie is demanded (section 3.5). -/
def Demand.demanded (d : Demand) : Bool := decide (0 < d.level) || decide (0 < d.independent) || d.emergency

/-! ### Inputs -/

/-- Whether an axle's state is one the shortfall and the hold take (R101, R105). -/
def SlideState.steady : SlideState → Bool
  | .clear => true
  | .suspect => true
  | .sliding => false
  | .recovering => false
  | .isolated => false
  | .unsensed => false

/-- Whether an axle's command carries the SLIDE flag (R110). -/
def SlideState.flagged : SlideState → Bool
  | .clear => false
  | .suspect => false
  | .sliding => true
  | .recovering => true
  | .isolated => false
  | .unsensed => false

/-- Whether a converter entry serves its axle (R95). -/
def Station.serves (e : Station) : Bool := e.live && decide (e.lastStatus ≠ .fault)

/-- Whether an own configured axle is in service (R95). -/
def State.inService (s : State) (i : Fin 3) : Bool :=
  s.configured i && decide ((s.axle i).state ≠ .isolated ∧ (s.axle i).state ≠ .unsensed) &&
    match s.converterOf i with
    | some e => e.serves
    | none => false

/-- Whether an axle's converter entry is FRESH (R101). -/
def State.freshConverter (s : State) (i : Fin 3) : Bool := match s.converterOf i with
  | some e => decide (e.state = .fresh)
  | none => false

/-! ### Stages 1 to 7 -/

/-- Stage 1: the bogie demand effort (R97). -/
def demandEffort (level fFull : Nat) : Nat := level * fFull / 1000

/-- Interpolation between two curve points, the quotient rounded toward zero (R98). -/
def interpolate (p q : CurvePoint) (v : Nat) : Nat :=
  if p.cap ≤ q.cap then p.cap + (q.cap - p.cap) * (v - p.speed) / (q.speed - p.speed)
  else p.cap - (p.cap - q.cap) * (v - p.speed) / (q.speed - p.speed)

/-- The curve over the points in use (R98). -/
def curveAt (v : Nat) : List CurvePoint → Nat
  | [] => 0
  | [p] => p.cap
  | p :: q :: rest =>
    if v < p.speed then p.cap
    else if v < q.speed then interpolate p q v
    else curveAt v (q :: rest)

/-- Stage 2: the capability curve at a speed (R98). -/
def Curve.capability (c : Curve) (v : Nat) : Nat := curveAt v (c.points.toList.take c.count)

/-- Stage 5: the shortfall of an axle that may claim one (R101). -/
def shortfall (u achieved tShort : Nat) : Nat := if achieved + tShort < u then u - achieved else 0

/-- Stages 3 to 5 for one own axle (R99 to R101, R104). -/
def State.axleWork (s : State) (b : Tables) (c re d : Nat) (i : Fin 3) : AxleWork :=
  let live := s.inService i
  let cap := if live then c * re / 1000 else 0
  let u := if s.configured i then min cap d else 0
  { inService := live
    capability := cap
    allotment := u
    target := if s.demand.emergency then 0 else u * (s.axle i).factor / 1000
    short := if live && (s.axle i).state.steady && s.freshConverter i
      then shortfall u (s.out i).achieved b.bogie.tShort else 0 }

/-- Stage 6: the air effort (R102). -/
def airEffort (fDem sumU sumShort : Nat) : Nat := fDem - sumU + sumShort

/-- Stage 7: the automatic part (R103). -/
def autoPressure (t : BogieTable) (fAir : Nat) : Nat :=
  if fAir = 0 then 0 else min t.pMax (t.pBase + fAir * t.gAir / 1000)

/-- Stage 7: the independent part (R103). -/
def indepPressure (t : BogieTable) (level : Nat) : Nat := level * t.pIndepFull / 1000

/-- Stage 7: the cylinder setpoint (R103, R104). -/
def setpoint (t : BogieTable) (emergency : Bool) (pAuto pInd : Nat) (ra : Option Nat) : Nat :=
  if emergency then t.pEmerg
  else match ra with
    | none => max pAuto pInd
    | some r => min (max pAuto pInd) r

/-- The working values of an evaluation, stages 1 to 7 (R97 to R104). -/
def State.blendWork (s : State) (b : Tables) : BlendWork :=
  let level := s.demand.level
  let fDem := demandEffort level b.bogie.fFull
  let c := b.curve.capability s.slide.vref
  let d := fDem / b.bogie.n
  let w := fun i => s.axleWork b c s.re d i
  let sumU := (w 0).allotment + (w 1).allotment + (w 2).allotment
  let fAir := airEffort fDem sumU ((w 0).short + (w 1).short + (w 2).short)
  let pAuto := autoPressure b.bogie fAir
  let pInd := indepPressure b.bogie s.demand.independent
  { level := level
    independent := s.demand.independent
    emergency := s.demand.emergency
    hold := s.demand.hold
    vref := s.slide.vref
    re := s.re
    ra := s.ra
    fDem := fDem
    c := c
    d := d
    axles := ⟨[w 0, w 1, w 2], rfl⟩
    sumU := sumU
    fAir := fAir
    pAuto := pAuto
    pInd := pInd
    pSet := setpoint b.bogie s.demand.emergency pAuto pInd s.ra }

/-! ### Stage 9 -/

/-- Whether an evaluation cuts a running hold short (R107). -/
def State.cutsShort (s : State) (w : BlendWork) : Bool :=
  s.blend.handover.isSome && (decide (w.fDem < s.blend.fPrev) || w.emergency)

/-- Whether stage 9 holds an axle (R105). -/
def State.holds (s : State) (w : BlendWork) (noHold : Bool) (i : Fin 3) : Bool :=
  !noHold && s.configured i && decide ((w.axles.get i).target < (s.out i).content.effort) &&
    (s.axle i).state.steady && s.inService i && decide (s.blend.fPrev ≤ w.fDem) && !w.emergency &&
    (s.blend.handover.isNone || decide ((s.out i).content.effort ≤ (s.out i).start))

/-- The commanded effort stage 9 gives an axle (R105, R94). -/
def State.newEffort (s : State) (w : BlendWork) (noHold : Bool) (i : Fin 3) : Nat :=
  if s.configured i then
    if s.holds w noHold i then (s.out i).content.effort else (w.axles.get i).target
  else 0

/-- Whether the handover timer starts at an evaluation (R106). -/
def State.startsHold (s : State) (w : BlendWork) (noHold : Bool) : Bool :=
  s.blend.handover.isNone && ownAxles.any (fun i => s.holds w noHold i)

/-- The handover timer after stage 9 (R106 to R108). -/
def State.newHandover (s : State) (b : Tables) (w : BlendWork) (noHold : Bool) : Option Timer :=
  if noHold || s.cutsShort w then none
  else if s.startsHold w noHold then some (s.timer b.supervision.tLead)
  else s.blend.handover

/-- An axle's output after stage 9 (R105, R106, R110). -/
def State.newOut (s : State) (w : BlendWork) (noHold : Bool) (i : Fin 3) : AxleOut :=
  let e := s.newEffort w noHold i
  { s.out i with
    content := ⟨e, s.configured i && (s.axle i).state.flagged⟩
    pendingEffort := if s.holds w noHold i then some (w.axles.get i).target else none
    start := if s.startsHold w noHold && s.configured i then e else (s.out i).start }

/-! ### Command offers -/

/-- T_refresh of the active table as a timer set now (R112). -/
def State.refreshTimer (s : State) : Option Timer := s.banks.active.map (fun b => s.timer b.supervision.tRefresh)

/-- The EFFORT_CMD of an own axle to a station (R110). -/
def State.effortFrame (s : State) (i : Fin 3) (e : Station) : Orig :=
  let c := (s.out i).content
  ⟨kindEffortCmd, e.address,
    [b8 (s.globalAxle i).val] ++ be16 c.effort ++ [flag c.slide] ++ be16 (s.demand.appNumber.toNat % 65536)⟩

/-- The PRESSURE_CMD to a station (R110). -/
def State.pressureFrame (s : State) (e : Station) : Orig :=
  let c := s.blend.pressure.content
  ⟨kindPressureCmd, e.address, [s.bogieByte] ++ be16 c.pressure ++ [c.phase.code, flag c.emergency]⟩

/-- An effort command offered to its station's side; its content is then the last sent and its refresh
timer restarts (R8, R111, R112). -/
def State.offerEffort (s : State) (i : Fin 3) (e : Station) : State :=
  (s.putOut i { s.out i with lastSent := some (s.out i).content, refresh := s.refreshTimer }).offerCommand
    e.side ⟨i.castSucc, s.effortFrame i e⟩

/-- The pressure command offered (R8, R111, R112). -/
def State.offerPressure (s : State) (e : Station) : State :=
  (s.withBlend { s.blend with
    pressure := { s.blend.pressure with
      lastSent := some s.blend.pressure.content, refresh := s.refreshTimer } }).offerCommand
    e.side ⟨3, s.pressureFrame e⟩

/-- An evaluation's offer of an axle's output (R111). -/
def State.sendEffort (s : State) (i : Fin 3) : State := match s.converterOf i with
  | some e => if (s.out i).lastSent = some (s.out i).content then s else s.offerEffort i e
  | none => s

/-- An evaluation's offer of the pressure output (R111). -/
def State.sendPressure (s : State) : State := match s.valve with
  | some e => if s.blend.pressure.lastSent = some s.blend.pressure.content then s else s.offerPressure e
  | none => s

/-- The four outputs offered in order (R111). -/
def State.sendOutputs (s : State) : State := (((s.sendEffort 0).sendEffort 1).sendEffort 2).sendPressure

/-! ### The evaluation -/

/-- Whether an evaluation's outputs differ from those before it (R115). -/
def State.outputsChanged (s : State) (prev : Option PrevOut) : Bool := match prev with
  | none => true
  | some p =>
    decide (p.pOut ≠ s.blend.pressure.content.pressure) ||
      ownAxles.any (fun i => s.configured i && decide (p.efforts.get i ≠ (s.out i).content.effort))

/-- An axle's commanded effort in a BLEND record, 0 beyond n (section 11.4). -/
def State.recordedEffort (s : State) (i : Fin 3) : Nat := if s.configured i then (s.out i).content.effort else 0

/-- The BLEND record (R115). -/
def State.recordBlend (s : State) : State :=
  let w := s.blend.work
  s.writeRecord .blend s.bogieByte
    (be16 w.fDem ++ be16 w.sumU ++ be16 w.fAir ++
      be16 (s.blend.pressure.content.pressure % 1024 + 1024 * s.n + (if s.blend.handover.isSome then 32768 else 0)) ++
      be16 (s.recordedEffort 0) ++ be16 (s.recordedEffort 1) ++ be16 (s.recordedEffort 2))

/-- The blend engine after stages 1 to 9, given the sequencer after stage 8 (R97 to R108). -/
def State.newBlend (s : State) (b : Tables) (w : BlendWork) (air : Air) (noHold : Bool) : Blend :=
  let o := fun i => s.newOut w noHold i
  let pOut := air.output air.pSet
  { axles := ⟨[o 0, o 1, o 2], rfl⟩
    pressure := { s.blend.pressure with content := ⟨pOut, air.state, w.emergency⟩ }
    handover := s.newHandover b w noHold
    fPrev := w.fDem
    work := w
    prev := some ⟨⟨[(o 0).content.effort, (o 1).content.effort, (o 2).content.effort], rfl⟩, pOut⟩ }

/-- The hand-on of a change of sequencer state taken at stage 8 (item 1 of R114). -/
def State.handStage8 (s : State) (old : AirState) : State :=
  if s.air.state = old then s else (s.recordAir old s.air).handOn [14]

/-- A change of p_out cancels the mismatch timer (item 2 of R114, R90). -/
def State.handPOut (s : State) (old : Nat) : State :=
  if s.blend.pressure.content.pressure = old then s else s.putAir { s.air with mismatchTimer := none }

/-- One evaluation on a bank (R93, R114): stages 1 to 9, then the AIR record, the change of p_out, the
command offers and the BLEND record. -/
def State.evaluateOn (s : State) (b : Tables) (noHold : Bool) : State :=
  let w := s.blendWork b
  let air := s.air.takeSetpoint s.now s.dumpBudget w.pSet
  let s1 := (s.putAir air).withBlend (s.newBlend b w air noHold)
  let s2 := (s1.handStage8 s.air.state).handPOut s.blend.pressure.content.pressure
  let s3 := s2.sendOutputs
  if s3.outputsChanged s.blend.prev then s3.recordBlend else s3

/-- An evaluation, in ACTIVE mode, where the active bank is always full (R94; log 34). -/
def State.evaluate (s : State) (noHold : Bool) : State := match s.banks.active with
  | some b => if s.isActive then s.evaluateOn b noHold else s
  | none => s

/-- The evaluation of an event that has called for one, after everything the event handed on (R93). -/
def State.evaluateIfDue (s : State) : State :=
  if s.work.evalDue then (s.withWork { s.work with evalDue := false }).evaluate false else s

/-- The end of an event: what is left is handed on, one evaluation runs if one is due, and its own
consequences are handed on (R93; logs 7 and 8). -/
def State.finish (s : State) : State := ((s.settle.evaluateIfDue).settle).withWork Work.clear

/-- The reset of the outputs when the mode leaves ACTIVE (R51, second item). -/
def Blend.withdrawn (x : Blend) : Blend :=
  let o := fun (y : AxleOut) => { y with
    content := ⟨0, false⟩, pendingEffort := none, lastSent := none, refresh := none }
  { x with
    axles := x.axles.map o
    pressure := { x.pressure with content := { x.pressure.content with pressure := 0 }, lastSent := none, refresh := none }
    handover := none
    prev := none }

end Sys2Proof.Machine
end

