-- ==== Sys2Proof/Machine/Demand.lean ====
section
/-!
DEFINITION. The demand unit: hold status, emergency latch, applications and modes (R35 to R53), with the
adoption that an entry to RELEASED can take (R146, R147).
-/

namespace Sys2Proof.Machine

/-- Cause codes of a MODE record (section 11.4). -/
def causeNone : Byte := 0
def causeConfirmed : Byte := 1
def causeTimedOut : Byte := 2
def causeNotDriven : Byte := 3

/-- A MODE record (R44, R51): form, old and new, mode, application state and number, cause. -/
def State.recordMode (s : State) (form old new cause : Byte) : State :=
  s.writeRecord .mode s.bogieByte
    ([form, old, new, s.demand.mode.code, s.demand.app.code] ++ be32 s.demand.appNumber ++ [cause])

/-! ### Modes -/

/-- An own configured axle with a STALE sample goes to UNSENSED at the entry to ACTIVE (item 1 of R52). The episode time
of a CLEAR axle becomes 0, as R69 has it for a sample that becomes STALE in ACTIVE mode (DESIGN CHOICE, log 51). -/
def State.unsenseAxle (s : State) (i : Fin 3) : State :=
  if s.configured i = true ∧ (s.ownSample i).state = .stale then
    s.changeAxle i (s.ownSample i).lastGood ((s.axle i).onStale s.now)
  else s

/-- A MODE notice for a mode (R51, R52). -/
def State.noticeMode (s : State) (m : Mode) : State := s.placeNotice .mode 0 (m.code.setWidth 32)

/-- The entry to ACTIVE from a mode (R52); no MODE notice when the mode did not change. The AXLE records of all
axles that go UNSENSED come first, then one hand-over of the aggregates, before the MODE record (log 39). -/
def State.enterActive (s : State) (old : Mode) : State :=
  let s1 := s.withDemand { s.demand with mode := .active }
  let s2 := (ownAxles.foldl State.unsenseAxle s1).handOn [6, 7, 8, 14]
  let s3 := s2.recordMode 1 old.code Mode.active.code causeNone
  (if old = .active then s3 else s3.noticeMode .active).callEval

/-- An own axle set to CLEAR when the mode leaves ACTIVE (item 3 of R51). -/
def State.clearAxle (s : State) (i : Fin 3) : State :=
  s.changeAxle i (s.ownSample i).lastGood
    { s.axle i with state := .clear, factor := 1000, suspect := 0, allowance := none }

/-- The sequencer and supervision when the mode leaves ACTIVE (item 4 of R51, R77). -/
def Air.idled (a : Air) : Air :=
  { a with
    state := .normal, dumpTimer := none, holdTimer := none, stepTimer := none, mismatchTimer := none,
    mismatch := false, pSet := 0 }

/-- A port's COMMAND queue withdrawn (R9). -/
def Port.withdrawn (p : Port) : Port := { p with command := [] }

/-- The mode leaves ACTIVE for ISOLATED (R51). R51 gives its effects no order: the AXLE records of all own axles
come first, then one hand-over of the conditions of R49, then the MODE record and its notice (log 45). -/
def State.leaveActive (s : State) : State :=
  let s1 := s.withLink { s.link with a := s.link.a.withdrawn, b := s.link.b.withdrawn }
  let s2 := s1.withBlend s1.blend.withdrawn
  let s3 := ownAxles.foldl State.clearAxle s2
  let s4 := (s3.putAir s3.air.idled).withDemand { s3.demand with mode := .isolated }
  let s5 := s4.handOn [6, 7, 8, 13, 14]
  (s5.recordMode 1 Mode.active.code Mode.isolated.code causeNone).noticeMode .isolated

/-! ### Adoption -/

/-- Whether an instant a length after a time has passed. -/
def passed (now t : Time) (len : Nat) : Bool := decide (len ≤ since now t)

/-- A port's silence timer set again at an adoption; an instant already past expires at once (R14; log 31). -/
def Port.rearm (p : Port) (now : Time) (len : Nat) : Port :=
  { p with
    silenceTimer := if passed now p.lastArrival len then none else some ⟨p.lastArrival, len⟩
    silent := p.silent || passed now p.lastArrival len }

/-- The REFERENCE_LOST timer set again at an adoption (R75; log 31). -/
def Slide.rearm (x : Slide) (now : Time) (len : Nat) : Slide :=
  { x with
    refTimer := if passed now x.lastUpdate len then none else some ⟨x.lastUpdate, len⟩
    refLost := x.refLost || passed now x.lastUpdate len }

/-- An own axle at an adoption that changes n from an old value (R75). An axle that becomes configured starts
with last slip, last creep and period start 0, which R75 does not name (log 40). Its AXLE record is written here, before
the next axle is taken (log 54). -/
def State.adoptAxle (old : Nat) (s : State) (i : Fin 3) : State :=
  if i.val < old ∧ s.n ≤ i.val then s.changeAxle i (s.ownSample i).lastGood (s.axle i).returned
  else if old ≤ i.val ∧ i.val < s.n then
    let s1 := s.putAxle i SlideRecord.reset
    if s1.isActive = true ∧ (s1.ownSample i).state = .stale then
      s1.changeAxle i (s1.ownSample i).lastGood ((s1.axle i).onStale s1.now)
    else s1
  else s

/-- An adoption, handed on in the order of R147. The ports hand their silence conditions over one after the
other, port A's first, each hand-over whole (R121; log 43). R75 names no order for several own axles whose records change:
their AXLE records are written in ascending own index, those of all of them before the aggregates and the sequencer are
handed on once (DESIGN CHOICE, log 54). -/
def State.adopt (s : State) : State :=
  let old := s.n
  let t := s.banks.adoptTables.supervision
  let s1 := (s.withBanks s.banks.adopted).handOn [18]
  let s2 := s1.withLink { s1.link with
    a := s1.link.a.rearm s1.now t.tPortSilent, b := s1.link.b.rearm s1.now t.tPortSilent }
  let s3 := ((s2.handOn [15]).handOn [16]).handOn [5, 9, 10, 11, 12]
  let s4 := (s3.withSlide (s3.slide.rearm s3.now t.tRefLost)).handOn [4]
  let s5 := ((ownAxles.foldl (State.adoptAxle old) s4).handAxles false false).handOn [14]
  (if s5.demand.mode = .transparent then s5.enterActive .transparent else s5).callEval

/-! ### Applications -/

/-- Whether an own configured axle is ISOLATED. -/
def State.isIsolated (s : State) (i : Fin 3) : Bool := s.configured i && decide ((s.axle i).state = .isolated)

/-- An ISOLATED own axle returned at the entry to RELEASED (item 3 of R47). -/
def State.releaseAxle (s : State) (i : Fin 3) : State := if s.isIsolated i then s.returnAxle i else s

/-- The entry to RELEASED (R46, R47). Where several ISOLATED axles return, the AXLE records of all of them, and of the
passing on to UNSENSED of those whose sample is STALE, are written first; the aggregates and the sequencer are then handed
on once (DESIGN CHOICE, log 52). -/
def State.enterReleased (s : State) (cause : Byte) : State :=
  let old := s.demand.app
  let s1 := (s.withDemand { s.demand with app := .released, releaseTimer := none }).recordMode 0 old.code
    AppState.released.code cause
  let s2 := (s1.putAir { s1.air with used := 0, exhausted := false }).handOn [14]
  let s3 := (ownAxles.foldl State.releaseAxle s2).handAxles false (ownAxles.any s2.isIsolated)
  if s3.banks.pendingAdoption then s3.adopt else s3

/-- The entry to APPLIED from RELEASED (R44). -/
def State.openApplication (s : State) : State :=
  (s.withDemand { s.demand with app := .applied, appNumber := s.demand.appNumber + 1 }).recordMode 0
    AppState.released.code AppState.applied.code causeNone

/-- The release-confirm timer set now (R45). -/
def State.releaseTimer (s : State) : Option Timer := s.banks.active.map (fun b => s.timer b.supervision.releaseConfirm)

/-- The entry to RELEASING (R45); outside ACTIVE the release is confirmed at once (R46). -/
def State.beginRelease (s : State) : State :=
  let s1 := (s.withDemand { s.demand with app := .releasing, releaseTimer := s.releaseTimer }).recordMode 0
    AppState.applied.code AppState.releasing.code causeNone
  if s1.isActive then s1 else s1.enterReleased causeNotDriven

/-- The return from RELEASING to APPLIED (R45). -/
def State.resumeApplication (s : State) : State :=
  (s.withDemand { s.demand with app := .applied, releaseTimer := none }).recordMode 0
    AppState.releasing.code AppState.applied.code causeNone

/-- The application state is tested after a change of the demand unit's state (R44, R45). -/
def State.testApplication (s : State) : State := match s.demand.app, s.demand.demanded with
  | .released, true => s.openApplication
  | .released, false => s
  | .applied, true => s
  | .applied, false => s.beginRelease
  | .releasing, true => s.resumeApplication
  | .releasing, false => s

/-- Items 3 to 5 of R43: the three conditions, the application state, an evaluation. An incident that a raise of entry
1, 2 or 3 opens in RELEASED carries the number of the application that stood before this event's entry to APPLIED,
since item 4 is taken after item 3 (DESIGN CHOICE, log 50). -/
def State.handDemand (s : State) (changed : Bool) : State :=
  ((s.handOn [1, 2, 3]).testApplication).callEvalIf changed

/-! ### The CAB entry's state -/

/-- The hold status when the CAB entry becomes LATE (R38). -/
def Hold.onLate : Hold → Hold
  | .none => .held
  | .startHold => .startHold
  | .held => .held
  | .penalty => .penalty

/-- The hold status when the CAB entry becomes STALE (R39). -/
def Hold.onStale : Hold → Hold
  | .none => .penalty
  | .startHold => .startHold
  | .held => .penalty
  | .penalty => .penalty

/-- A new hold status taken by the demand unit and handed on (R43). -/
def State.takeHold (s : State) (h : Hold) : State :=
  (s.withDemand { s.demand with hold := h }).handDemand (decide (h ≠ s.demand.hold))

/-- The demand unit after the CAB entry is written or removed (R37). -/
def Demand.restarted (d : Demand) : Demand :=
  if d.hold = .penalty then d else { d with hold := .startHold, lLast := 0, iLast := 0 }

/-- The CAB entry written or removed (R22, R37). -/
def State.cabChanged (s : State) : State :=
  (s.withDemand s.demand.restarted).handDemand (decide (s.demand.restarted.hold ≠ s.demand.hold))

/-! ### Taking a DEMAND -/

/-- The EMERGENCY flag of a DEMAND (R190). -/
def emergencyFlag (flags : Byte) : Bool := flags.getLsbD 0

/-- The PENALTY_ACK flag of a DEMAND (R190). -/
def ackFlag (flags : Byte) : Bool := flags.getLsbD 1

/-- The hold status after an accepted DEMAND (R37 to R39). -/
def Hold.onDemand (h : Hold) (ack : Bool) : Hold := match h with
  | .none => .none
  | .startHold => .none
  | .held => .none
  | .penalty => if ack then .none else .penalty

/-- The demand unit after an accepted DEMAND (R35, R37 to R41). -/
def Demand.taken (d : Demand) (level indep : Nat) (flags : Byte) (slow : Bool) : Demand :=
  { d with
    lLast := clamp 0 1000 level
    iLast := clamp 0 1000 indep
    hold := d.hold.onDemand (ackFlag flags)
    emergency := emergencyFlag flags || (d.emergency && !slow) }

/-- The DEMAND record (R35). -/
def State.recordDemand (s : State) (address flags : Byte) : State :=
  s.writeRecord .demand address
    (be16 s.demand.lLast ++ be16 s.demand.iLast ++ [flags, flag s.demand.emergency, s.demand.hold.code])

/-- An accepted DEMAND at the demand unit, in the order of R43: the trigger, the DEMAND record, then the
conditions, a fall of DEMAND_LATE by the CAB entry's return to FRESH among them (log 38). An incident that the
EMERGENCY trigger opens in RELEASED carries the number of the application that stood before this event's entry to
APPLIED, since item 4 of R43 is taken after item 1 (DESIGN CHOICE, log 50). -/
def State.takeDemand (s : State) (address : Byte) (level indep : Nat) (flags : Byte) : State :=
  let s1 := s.withDemand (s.demand.taken level indep flags (decide (s.slide.vref < s.vMin)))
  let s2 := if emergencyFlag flags && !s.demand.emergency then s1.sendTrigger .emergency address else s1
  (s2.recordDemand address flags).handDemand true

/-- Release by confirmation (R46). -/
def State.confirmRelease (s : State) (measured : Nat) : State := match s.banks.active with
  | some b =>
    if s.isActive ∧ s.demand.app = .releasing ∧ measured ≤ b.supervision.releaseThreshold ∧
        ownAxles.all (fun i => !s.configured i || decide ((s.out i).content.effort = 0)) = true then
      s.enterReleased causeConfirmed
    else s
  | none => s

end Sys2Proof.Machine
end

