-- ==== Sys2Proof/Machine/Stations.lean ====
section
/-!
DEFINITION. The frame classifier: acceptance (R24 to R28), axle samples (R29, R30), the timers of stations
and samples (R27), the edits of the station table (R20 to R22).
-/

namespace Sys2Proof.Machine

/-- The five conditions the classifier owns (R31). -/
def classifierEntries : List Nat := [5, 9, 10, 11, 12]

/-! ### Sequence numbers -/

/-- Whether a SEQ is newer than a last SEQ (R25). -/
def newerSeq (seq : Byte) (last : Option Byte) : Bool := match last with
  | none => true
  | some l => decide (1 ≤ (seq - l).toNat) && decide ((seq - l).toNat ≤ 127)

/-- Whether an accepted SEQ leaves a gap (R25). -/
def gapSeq (seq : Byte) (last : Option Byte) : Bool := match last with
  | none => false
  | some l => decide (2 ≤ (seq - l).toNat) && decide ((seq - l).toNat ≤ 127)

/-- The last SEQ and gap count of an entry after an acceptance (R25, R26 step 1). -/
def Station.sequenced (e : Station) (seq : Byte) : Station :=
  { e with lastSeq := some seq, gapCount := if gapSeq seq e.lastSeq then bump e.gapCount else e.gapCount }

/-- A conceal timer started with a freshness timer (R27, R29). -/
def concealTimerFor (now : Time) (fresh conceal : Nat) : Option Timer :=
  if conceal = 0 then none else some ⟨now, fresh + conceal⟩

/-- An entry after an accepted frame (R26 steps 1 and 2, R27). -/
def Station.accepted (e : Station) (seq : Byte) (now : Time) : Station :=
  { e.sequenced seq with
    lastAccept := now, state := .fresh, freshTimer := some ⟨now, e.freshLimit⟩
    concealTimer := concealTimerFor now e.freshLimit e.concealLimit }

/-- Whether an entry is a converter bound to an own configured axle (R93). -/
def State.servesOwn (s : State) (e : Station) : Bool :=
  decide (e.role = .converter) &&
    ownAxles.any (fun i => s.configured i && e.bound.contains (s.globalAxle i).val)

/-- An accepted frame at its entry, with the conditions reassessed and the change of a converter's state
calling for an evaluation (R26, R31, R93). The conditions reassessed here are the classifier's five; the fall
of DEMAND_LATE that a LATE CAB entry's return brings is left to the demand unit (log 38). -/
def State.acceptStation (s : State) (e : Station) (f : Station → Station) : State :=
  ((s.mapStation e.address f).handOn classifierEntries).callEvalIf
    (s.servesOwn e && decide (e.state ≠ .fresh))

/-! ### Policing -/

/-- One count of an entry raised. -/
def Station.rejected (e : Station) : Station := { e with rejectCount := bump e.rejectCount }

/-- The sequence-stale count of an entry raised. -/
def Station.staled (e : Station) : Station := { e with staleCount := bump e.staleCount }

/-- The unknown-source count of a port raised (R24). -/
def State.countUnknown (s : State) (p : PortId) : State :=
  s.putPort p { s.port p with unknownSources := bump (s.port p).unknownSources }

/-- The six checks of R24, in order: the entry of the source, its role, its side, the payload's form, the
numbers bound, the sequence; then the acceptance. -/
def State.police (s : State) (p : PortId) (src seq : Byte) (role : Role) (formOk : Bool)
    (bound : Station → Bool) (accept : Station → State) : State :=
  match s.station src with
  | none => s.countUnknown p
  | some e =>
    if e.role ≠ role then s.mapStation src Station.rejected
    else if e.side ≠ p then s.mapStation src Station.rejected
    else if formOk = false then s.mapStation src Station.rejected
    else if bound e = false then s.mapStation src Station.rejected
    else if newerSeq seq e.lastSeq = false then s.mapStation src Station.staled
    else accept e

/-- A policed frame whose payload has not the length of its kind: it can fail step 4 at the latest. -/
def State.policeMisformed (s : State) (p : PortId) (src seq : Byte) (role : Role) : State :=
  s.police p src seq role false (fun _ => true) (fun _ => s)

/-- DEMAND and the quality codes: a set bit that no layout names, or an unlisted code, is a format error
(R24 step 4, R189, R190). -/
def demandFormOk (flags : Byte) : Bool := decide (flags.toNat < 4)

/-- A DEMAND at the classifier (R24, R26). Where the frame makes a LATE CAB entry FRESH, the demand unit hands
on the fall of DEMAND_LATE with its other conditions, after the DEMAND record (R43 item 3; log 38). -/
def State.consumeDemand (s : State) (p : PortId) (src seq : Byte) (level indep : BitVec 16) (flags : Byte) : State :=
  s.police p src seq .cab (demandFormOk flags) (fun _ => true) (fun e =>
    (s.acceptStation e (fun x => x.accepted seq s.now)).takeDemand e.address level.toNat indep.toNat flags)

/-! ### Axle samples -/

/-- A sample of quality OK taken (R29). -/
def AxleSample.taken (x : AxleSample) (now : Time) (e : Station) (speed : Nat) : AxleSample :=
  { x with
    state := .fresh, lastGood := speed, freshTimer := some ⟨now, e.freshLimit⟩
    concealTimer := concealTimerFor now e.freshLimit e.concealLimit }

/-- A sample of quality DOUBTFUL taken (R29). -/
def AxleSample.doubted (x : AxleSample) : AxleSample := { x with doubtful := bump x.doubtful }

/-- A sample with its axle number in range and its quality known. -/
structure GoodSample where
  axle : Fin 12
  speed : Nat
  ok : Bool
deriving DecidableEq, Repr

/-- One sample read: its axle number and quality checked (R24 step 4), its speed clamped (R26). -/
def readSample (x : SpeedSample) : Option GoodSample :=
  if h : x.axle.toNat < 12 then
    if x.quality.toNat < 2 then
      some ⟨⟨x.axle.toNat, h⟩, clamp 0 2000 x.speed.toNat, decide (x.quality = 0)⟩
    else none
  else none

/-- All samples read, none if one fails (R24 step 4). -/
def readSamples : List SpeedSample → Option (List GoodSample)
  | [] => some []
  | x :: xs => match readSample x, readSamples xs with
    | some y, some ys => some (y :: ys)
    | _, _ => none

/-- Whether no axle appears twice (R24 step 4). -/
def distinctAxles : List GoodSample → Bool
  | [] => true
  | x :: xs => !xs.any (fun y => decide (y.axle = x.axle)) && distinctAxles xs

/-- The payload check of an AXLE_SPEED frame: 1..4 samples, no axle twice, known numbers and codes. -/
def samplesFormOk (xs : List SpeedSample) : Bool := match readSamples xs with
  | some l => decide (1 ≤ l.length) && decide (l.length ≤ 4) && distinctAxles l
  | none => false

/-- One sample of an accepted frame taken (R29). -/
def State.takeSample (e : Station) (s : State) (x : GoodSample) : State :=
  if x.ok then s.putSample x.axle ((s.sample x.axle).taken s.now e x.speed)
  else s.putSample x.axle (s.sample x.axle).doubted

/-- The samples of an accepted frame: taken in payload order, then handed over as one arrival (R29, R30,
R54, R62). -/
def State.takeSamples (s : State) (e : Station) (xs : List GoodSample) : State :=
  ((xs.foldl (State.takeSample e) s).updateReference).evaluateSamples
    ((xs.filter (fun x => x.ok)).map (fun x => (x.axle, x.speed)))

/-- An AXLE_SPEED at the classifier (R24, R26). -/
def State.consumeSpeeds (s : State) (p : PortId) (src seq : Byte) (xs : List SpeedSample) : State :=
  s.police p src seq .axleUnit (samplesFormOk xs) (fun e => xs.all (fun x => e.bound.contains x.axle.toNat))
    (fun e => (s.acceptStation e (fun x => x.accepted seq s.now)).takeSamples e ((readSamples xs).getD []))

/-! ### Radar, converters, valve -/

/-- The radar doubtful count raised (R26). -/
def State.doubtRadar (s : State) : State := s.withCls { s.cls with radarDoubtful := bump s.cls.radarDoubtful }

/-- A GROUND_SPEED at the classifier: a DOUBTFUL frame sets its entry's last SEQ and gap count and is not
handed on; an OK frame sets the radar speed and updates the reference (R26, R54). -/
def State.consumeGround (s : State) (p : PortId) (src seq : Byte) (speed : BitVec 16) (quality : Byte) : State :=
  s.police p src seq .radar (decide (quality.toNat < 2)) (fun _ => true) (fun e =>
    if quality = 0 then
      let s1 := s.acceptStation e (fun x => x.accepted seq s.now)
      (s1.withSlide { s1.slide with radarSpeed := clamp 0 2000 speed.toNat }).updateReference
    else (s.mapStation e.address (fun x => x.sequenced seq)).doubtRadar)

/-- An EFFORT_REPORT at the blend engine (R96). -/
def State.takeEffort (s : State) (axle effort : Nat) (status : ConverterStatus) : State :=
  match s.ownIndex axle with
  | some i =>
    (s.putOut i { s.out i with achieved := clamp 0 2000 effort, status := status }).callEvalIf (s.configured i)
  | none => s

/-- An EFFORT_REPORT at the classifier (R24, R26): the reported status is set with the acceptance. -/
def State.consumeEffort (s : State) (p : PortId) (src seq axle : Byte) (effort : BitVec 16) (status : Byte) : State :=
  match ConverterStatus.ofCode status with
  | some st =>
    s.police p src seq .converter (decide (axle.toNat < 12)) (fun e => e.bound.contains axle.toNat) (fun e =>
      (s.acceptStation e (fun x => { x.accepted seq s.now with lastStatus := st })).takeEffort
        axle.toNat effort.toNat st)
  | none => s.policeMisformed p src seq .converter

/-- A PRESSURE_REPORT at its owners (R88, R46). R88 lets neither wait on the other: supervision takes it first,
release confirmation next (log 46). -/
def State.takeReport (s : State) (bogie measured : Nat) (status : ValveStatus) : State :=
  if bogie = s.ident.position.val then
    (s.takePressure (clamp 0 1000 measured) status).confirmRelease (clamp 0 1000 measured)
  else s

/-- A PRESSURE_REPORT at the classifier (R24, R26). -/
def State.consumePressure (s : State) (p : PortId) (src seq bogie : Byte) (pressure : BitVec 16) (status : Byte) :
    State :=
  match ValveStatus.ofCode status with
  | some st =>
    s.police p src seq .valve (decide (bogie.toNat < 4)) (fun e => e.bound.contains bogie.toNat) (fun e =>
      (s.acceptStation e (fun x => x.accepted seq s.now)).takeReport bogie.toNat pressure.toNat st)
  | none => s.policeMisformed p src seq .valve

/-- A frame of a kind that is not policed, from a PEER entry (R28). -/
def State.consumePeer (s : State) (p : PortId) (src seq : Byte) : State := match s.station src with
  | none => s
  | some e =>
    if e.role ≠ .peer then s
    else if e.side ≠ p then s.mapStation src Station.rejected
    else if newerSeq seq e.lastSeq = false then s.mapStation src Station.staled
    else s.acceptStation e (fun x => x.accepted seq s.now)

/-! ### Timers of stations and samples -/

/-- An entry at the expiry of its freshness timer (R27). -/
def Station.onFresh (e : Station) : Station :=
  if e.concealLimit = 0 then { e with state := .stale, freshTimer := none, concealTimer := none }
  else { e with state := .late, freshTimer := none }

/-- An entry at the expiry of its conceal timer (R27). -/
def Station.onConceal (e : Station) : Station := { e with state := .stale, concealTimer := none }

/-- The mismatch timer is cancelled when the VALVE entry of bogie p leaves FRESH (R90). -/
def State.leaveFresh (s : State) (e : Station) : State :=
  if e.role = .valve ∧ e.bound.contains s.ident.position.val = true ∧ e.state = .fresh then
    s.putAir { s.air with mismatchTimer := none }
  else s

/-- The CAB entry's new state at the demand unit (R38, R39, R43). -/
def State.cabMoved (s : State) (x : StationState) : State := match x with
  | .new => s
  | .fresh => s
  | .late => s.takeHold s.demand.hold.onLate
  | .stale => s.takeHold s.demand.hold.onStale

/-- A change of an entry's state by a timer, handed to its owner (R27, R31). -/
def State.moveStation (s : State) (e e' : Station) : State :=
  let s1 := (s.mapStation e.address (fun _ => e')).leaveFresh e
  let s2 := if e.role = .cab then s1.cabMoved e'.state else s1
  (s2.handOn classifierEntries).callEvalIf (s.servesOwn e)

/-- The freshness timer of an entry expires (R27). -/
def State.expireFresh (s : State) (a : Byte) : State := match s.station a with
  | some e => if e.freshTimer.isSome = true ∧ e.state = .fresh then s.moveStation e e.onFresh else s
  | none => s

/-- The conceal timer of an entry expires (R27). -/
def State.expireConceal (s : State) (a : Byte) : State := match s.station a with
  | some e => if e.concealTimer.isSome = true ∧ e.state = .late then s.moveStation e e.onConceal else s
  | none => s

/-- The AXLE_UNIT entry to which an axle is bound. -/
def State.unitOf (s : State) (g : Fin 12) : Option Station := s.stationBinding .axleUnit g.val

/-- A sample at the expiry of its freshness timer (R29): no conceal timer runs with a conceal limit of 0. -/
def AxleSample.onFresh (x : AxleSample) : AxleSample :=
  if x.concealTimer = none then { x with state := .stale, freshTimer := none }
  else { x with state := .late, freshTimer := none }

/-- A sample that is given up (R29). -/
def AxleSample.onConceal (x : AxleSample) : AxleSample := { x with state := .stale, concealTimer := none }

/-- The freshness timer of an axle's sample expires (R29, R68, R69). -/
def State.expireSample (s : State) (g : Fin 12) : State :=
  let x := s.sample g
  if x.freshTimer.isSome = true ∧ x.state = .fresh then
    let s1 := s.putSample g x.onFresh
    if x.onFresh.state = .stale then s1.loseAxle g else s1
  else s

/-- The conceal timer of an axle's sample expires (R29, R69). -/
def State.expireSampleConceal (s : State) (g : Fin 12) : State :=
  let x := s.sample g
  if x.concealTimer.isSome = true ∧ x.state = .late then (s.putSample g x.onConceal).loseAxle g else s

/-! ### Edits of the station table -/

/-- A sample dropped by an edit of its AXLE_UNIT entry (R22). -/
def AxleSample.dropped (x : AxleSample) : AxleSample :=
  { x with state := .stale, lastGood := 0, freshTimer := none, concealTimer := none }

/-- One axle bound to an edited AXLE_UNIT entry (R22, R30; log 36). -/
def State.dropSample (s : State) (g : Fin 12) : State := (s.putSample g (s.sample g).dropped).loseAxle g

/-- The axles an AXLE_UNIT entry binds, in ascending global number, in which an edit drops and hands them over: the spec
names no order of the axles of one edit (R22; DESIGN CHOICE, log 53). -/
def Station.unitAxles (e : Station) : List (Fin 12) :=
  if e.role = .axleUnit then allAxles.filter (fun g => e.bound.contains g.val) else []

/-- An own axle whose converter entry is written or removed (R96, R113). -/
def State.resetOut (s : State) (i : Fin 3) : State :=
  (s.putOut i { s.out i with achieved := 0, lastSent := none, refresh := none }).callEval

/-- The effect of an edited CONVERTER entry on the outputs (R96, R113). -/
def State.editConverter (s : State) (e : Station) : State :=
  if e.role = .converter then
    ownAxles.foldl (fun t i => if e.bound.contains (t.globalAxle i).val then t.resetOut i else t) s
  else s

/-- The effect of an edited VALVE entry on the pressure output (R113). -/
def State.editValve (s : State) (e : Station) : State :=
  if e.role = .valve ∧ e.bound.contains s.ident.position.val = true then
    (s.withBlend { s.blend with pressure := { s.blend.pressure with lastSent := none, refresh := none } }).callEval
  else s

/-- What the entries an edit touches do to the blocks that depend on them (R22): the old entry and the new,
of which one may be absent. The old entry's axles are dropped before the new one's, each handed over whole before the
next is dropped (DESIGN CHOICE, log 53). -/
def State.edited (s : State) (es : List Station) (old : Option Station) : State :=
  let s1 := (es.flatMap Station.unitAxles).foldl State.dropSample s
  let s2 := if es.any (fun e => decide (e.role = .cab)) then s1.cabChanged else s1
  let s3 := es.foldl State.editConverter s2
  let s4 := es.foldl State.editValve s3
  let s5 := match old with
    | some e => s4.leaveFresh e
    | none => s4
  s5.handOn classifierEntries

/-- An entry inserted in place of one of its address, or at the end. -/
def replaceStation (e : Station) : List Station → List Station
  | [] => [e]
  | x :: xs => if x.address = e.address then e :: xs else x :: replaceStation e xs

/-- Whether two entries break a binding rule (R20 step 3). -/
def Station.conflicts (x y : Station) : Bool := match x.role, y.role with
  | .cab, .cab => true
  | .radar, .radar => true
  | .converter, .converter => x.bound.any (fun k => y.bound.contains k)
  | .axleUnit, .axleUnit => x.bound.any (fun k => y.bound.contains k)
  | .valve, .valve => x.bound.any (fun k => y.bound.contains k)
  | _, _ => false

/-- Whether a bound list has no number twice. -/
def distinctNats : List Nat → Bool
  | [] => true
  | x :: xs => !xs.contains x && distinctNats xs

/-- The bound list a role takes (R19): its length and range, no axle twice (R20 step 1). -/
def Role.boundOk (r : Role) (l : List Nat) : Bool := match r with
  | .cab => l.isEmpty
  | .radar => l.isEmpty
  | .peer => l.isEmpty
  | .axleUnit => decide (1 ≤ l.length) && decide (l.length ≤ 4) && l.all (fun k => decide (k < 12)) && distinctNats l
  | .converter => decide (l.length = 1) && l.all (fun k => decide (k < 12))
  | .valve => decide (l.length = 1) && l.all (fun k => decide (k < 4))

/-- A written entry (R19): NEW, nothing counted. -/
def Station.written (address : Byte) (role : Role) (side : PortId) (bound : List Nat) (fresh conceal : Nat)
    (now : Time) : Station where
  address := address
  role := role
  side := side
  bound := bound
  freshLimit := clamp 10 5000 fresh
  concealLimit := clamp 0 10000 conceal
  lastSeq := none
  lastAccept := now
  state := .new
  lastStatus := .ok
  gapCount := 0
  staleCount := 0
  rejectCount := 0
  freshTimer := none
  concealTimer := none

/-- Whether station edits are refused BUSY (R20 step 2). -/
def State.editBusy (s : State) : Bool := s.isActive && decide (s.demand.app ≠ .released)

end Sys2Proof.Machine
end

