-- ==== Sys2Proof/Machine/Manage.lean ====
section
/-!
DEFINITION. The arrival of a frame that has passed the port checks (R5, R13, R32) and the serving of a
management request (R175 to R177, R185).
-/

namespace Sys2Proof.Machine

/-! ### Arrivals -/

/-- The entry number of a port's silence condition (R13). -/
def silenceEntry : PortId → Nat
  | .a => 15
  | .b => 16

/-- The silence timer of a port set now, while a SUPERVISION table is active (R13). -/
def State.silenceTimer (s : State) : Option Timer := s.banks.active.map (fun b => s.timer b.supervision.tPortSilent)

/-- A passing arrival at its port (R13). -/
def State.passArrival (s : State) (p : PortId) : State :=
  (s.putPort p { s.port p with silent := false, lastArrival := s.now, silenceTimer := s.silenceTimer }).handOn
    [silenceEntry p]

/-- Whether a match entry matches a frame (R32). -/
def MatchEntry.hits (m : MatchEntry) (f : Frame) : Bool :=
  m.enable && decide (f.kind = m.kind) && (decide (m.source = 0) || decide (m.source = f.src)) &&
    decide (m.offset < f.payload.length) && decide (f.payload.getD m.offset 0 &&& m.mask = m.value &&& m.mask)

/-- One match entry tested (R32): the trigger, then the FRAME record. -/
def State.testMatch (f : Frame) (s : State) (k : Fin 4) : State :=
  if (s.cls.matchers.get k).hits f then
    (s.sendTrigger .frameMatch (b8 k.val)).writeRecord .frame (b8 k.val)
      ([f.kind, f.src] ++ padTo 8 (f.payload.take 8))
  else s

/-- The four match entries tested in ascending number (R32). -/
def State.testMatches (s : State) (f : Frame) : State :=
  ([0, 1, 2, 3] : List (Fin 4)).foldl (State.testMatch f) s

/-- The forwarding of a frame, on DEST alone (R5). -/
def State.forward (s : State) (p : PortId) (f : Frame) : State :=
  if f.dest = s.nodeByte then s else s.offerForwarded (otherPort p) f

/-- A frame that has passed the port checks, up to the classifier: the port's silence, the match entries,
the forwarding (R5, R13, R32; log 6). -/
def State.arrived (s : State) (p : PortId) (f : Frame) : State :=
  (((s.passArrival p).testMatches f).settle.forward p f).settle

/-- The whole arrival of a passing frame: then what the classifier makes of it, and the end of the event
(R23). -/
def State.arrive (s : State) (p : PortId) (f : Frame) (consume : State → State) : State :=
  (consume (s.arrived p f)).finish

/-! ### Requests -/

/-- The malformed-request count raised (R175). -/
def State.countMalformed (s : State) : State := s.withMgmt { s.mgmt with malformed := bump s.mgmt.malformed }

/-- Whether a request's source is malformed (R175). -/
def State.badSource (s : State) (src : Byte) : Bool := decide (src = 0 ∨ src = 127 ∨ src = s.nodeByte)

/-- Whether a brake-group request's scope names this device (R175). -/
def State.scopeOwn (s : State) (h : ReqHead) : Bool :=
  (decide (h.scopeKind = 1) && (s.ownIndex h.scopeNumber.toNat).isSome) ||
    (decide (h.scopeKind = 2) && decide (h.scopeNumber.toNat = s.ident.position.val))

/-- Whether a well-sourced request is served (R175). -/
def State.serves (s : State) (h : ReqHead) : Bool :=
  decide (h.dest = s.nodeByte) || (decide (h.dest = 127) && s.scopeOwn h)

/-- A scope kind that R190 lists (R176). -/
def scopeListed (h : ReqHead) : Bool := decide (h.scopeKind.toNat < 3)

/-- The open load cancelled at the arrival of a request (R144). -/
def State.cancelLoad (s : State) : State := s.withBanks s.banks.cancelLoad

/-- Offerings wait while a request is taken (R185). -/
def State.inRequest (s : State) (b : Bool) : State := s.withWork { s.work with inRequest := b }

/-- The MGMT_REPLY of a request (R177). -/
def replyFrame (h : ReqHead) (code : Byte) (r : Reply) : Orig :=
  ⟨kindReply, h.src, [code] ++ word16 h.tag ++ [r.status.code] ++ r.data⟩

/-- Step 4 of R177, after every effect of step 3: what the request left is handed on and evaluated, then
the reply is offered to the arrival port (log 8). -/
def State.reply (h : ReqHead) (code : Byte) (t : Taken) : State :=
  ((t.1.settle.evaluateIfDue).settle.offerReply h.port (replyFrame h code t.2)).settle

/-- What the owner of a served request finds: an open load that the request does not continue is
cancelled (step 1 of R177). -/
def State.taking (s : State) (continues : State → Bool) : State :=
  (if continues s then s else s.cancelLoad).inRequest true

/-- Steps 2 and 3 of R177: an unlisted scope kind is refused (R176) with no values, a SET_MODE too (log 44), else
the owner takes the request. -/
def State.takeWith (s : State) (h : ReqHead) (take : State → Taken) : Taken :=
  if scopeListed h then take s else refuse s .invalid

/-- A served request (R177): the load cancelled, the owner's taking, the reply, the offering. -/
def State.serve (s : State) (h : ReqHead) (code : Byte) (continues : State → Bool) (take : State → Taken) : State :=
  (((State.reply h code ((s.taking continues).takeWith h take)).inRequest false).callOffer).settle

/-- A request at the responder (R175): counted when malformed, served, or left alone. -/
def State.respond (s : State) (h : ReqHead) (code : Byte) (continues : State → Bool) (take : State → Taken) : State :=
  if s.badSource h.src then s.countMalformed
  else if s.serves h then s.serve h code continues take
  else s

/-- A request's way through the classifier: handed to the responder when its DEST is the device's own
address or 127 (R23). -/
def State.consumeRequest (s : State) (h : ReqHead) (code : Byte) (continues : State → Bool) (take : State → Taken) :
    State :=
  if h.dest = s.nodeByte ∨ h.dest = 127 then s.respond h code continues take else s

/-- No request but LOAD_SEGMENT continues an open load (R144). -/
def neverContinues : State → Bool := fun _ => false

/-- The whole event of a request command: its frame arrives and the responder takes it. -/
def State.request (s : State) (h : ReqHead) (code : Byte) (params : List Byte) (continues : State → Bool)
    (take : State → Taken) : State :=
  s.arrive h.port (requestFrame h code params) (fun t => t.consumeRequest h code continues take)

/-- Every command's outcome: the device goes on (log 30). -/
abbrev Outcome := Host.Outcome State Fault Refusal

/-- The event of a request command with no continuation, as an outcome. -/
def requestOutcome (s : State) (h : ReqHead) (code : Byte) (params : List Byte) (take : State → Taken) : Outcome :=
  .next (s.request h code params neverContinues take)

end Sys2Proof.Machine
end

