-- ==== Sys2Proof/Machine/BankRequests.lean ====
section
/-!
DEFINITION. The requests of the table banks: LOAD_SEGMENT (R142, R143), ADOPT (R145, R146), DISCARD_STAGED
(R150).
-/

namespace Sys2Proof.Machine

/-! ### LOAD_SEGMENT -/

/-- The table of a selector byte, in its high four bits (R191). -/
def selectedTable (selector : Byte) : Option TableId := tableOfNat (selector.toNat / 16)

/-- The segment of a selector byte, in its low four bits (R191). -/
def selectedSegment (selector : Byte) : Nat := selector.toNat % 16

/-- Whether a LOAD_SEGMENT continues the open load: it names the load's table and the next segment, which
is always segment 1 (R142 step 1). -/
def loadContinues (selector : Byte) (s : State) : Bool := match s.banks.openLoad with
  | some t => decide (selectedTable selector = some t) && decide (selectedSegment selector = 1)
  | none => false

/-- The values of a LOAD_SEGMENT reply (R142): table, segment, load state, next segment or none, fields
clamped, whether an adoption was withdrawn. -/
def loadData (s : State) (t : TableId) (segment clamped : Nat) (withdrawn : Bool) : List Byte :=
  [t.code, b8 segment, (s.banks.states.get t).code, if s.banks.openLoad = some t then 1 else 0xFF] ++
    be16 clamped ++ [flag withdrawn]

/-- Steps 3 and 4 of R142 for a segment that passed step 2. -/
def State.takeSegment (s : State) (t : TableId) (segment : Nat) (contents : List Byte) : Taken :=
  let withdrawn := s.banks.pendingAdoption
  let s1 := s.withdraw
  if segment = 0 then
    let s2 := s1.withBanks (s1.banks.startLoad t contents)
    done s2 (loadData s2 t segment (t.clamped segment contents) withdrawn)
  else if s1.banks.openLoad = some t then
    let s2 := s1.withBanks (s1.banks.endLoad t contents)
    done s2 (loadData s2 t segment (t.clamped segment contents) withdrawn)
  else (s1, ⟨.sequence, loadData s1 t segment 0 withdrawn⟩)

/-- LOAD_SEGMENT taken (R142, R143). A segment 1 that continues the open load and is refused INVALID for its
length leaves the load open (log 41). -/
def takeLoadSegment (selector : Byte) (contents : List Byte) (s : State) : Taken :=
  match selectedTable selector with
  | none => refuse s .invalid
  | some t =>
    let segment := selectedSegment selector
    if segment < t.segments ∧ contents.length = t.segmentBytes segment then s.takeSegment t segment contents
    else refuse s .invalid

/-- LOAD_SEGMENT (R142). -/
def execLoadSegment (h : ReqHead) (selector : Byte) (contents : List Byte) (s : State) : Outcome :=
  .next (s.request h 0x30 (selector :: contents) (loadContinues selector) (takeLoadSegment selector contents))

/-! ### ADOPT -/

/-- Codes of the failures of ADOPT, in the order R145 names them (log 15). -/
def AdoptFailure.code : AdoptFailure → Byte
  | .notReady => 0
  | .notComplete => 1
  | .curveOrder => 2
  | .pressureOrder => 3
  | .baseOrder => 4
  | .bandOrder => 5
  | .bandLast => 6
  | .bandHysteresis => 7

/-- Step 1 of R145: the first table, in the order CURVE, BOGIE, BANDS, SUPERVISION, that is LOADING or
INCOMPLETE (log 42). -/
def Banks.notReady (x : Banks) : Option TableId :=
  allTables.find? (fun t => decide (x.states.get t = .loading ∨ x.states.get t = .incomplete))

/-- Step 2 of R145: with the active bank empty, the first UNTOUCHED table. -/
def Banks.notComplete (x : Banks) : Option TableId :=
  if x.active.isNone then allTables.find? (fun t => decide (x.states.get t = .untouched)) else none

/-- Step 3 of R145: nothing is staged. -/
def Banks.nothingStaged (x : Banks) : Bool := allTables.all (fun t => decide (x.states.get t = .untouched))

/-- An ADOPT refused INVALID with its failure code, table and index (R145); a failure with no index carries the
byte 0xFF in its place (log 42). -/
def refuseAdopt (s : State) (f : AdoptRefusal) : Taken :=
  (s, ⟨.invalid, [f.failure.code, f.table.code, match f.index with | some k => b8 k | none => 0xFF]⟩)

/-- An accepted ADOPT (R146): outcome 0 ADOPTED with the adoption count, 1 DEFERRED. -/
def State.acceptAdopt (s : State) : Taken :=
  if s.demand.app = .released then
    let t := s.adopt
    done t ([0] ++ be16 t.banks.adoptions)
  else done ((s.withBanks { s.banks with pendingAdoption := true }).handOn [18]) [1]

/-- ADOPT taken (R145, R146). -/
def takeAdopt (s : State) : Taken := match s.banks.notReady, s.banks.notComplete with
  | some t, _ => refuseAdopt s ⟨.notReady, t, none⟩
  | none, some t => refuseAdopt s ⟨.notComplete, t, none⟩
  | none, none =>
    if s.banks.nothingStaged then refuse s .refused
    else match s.banks.validate with
      | some f => refuseAdopt s f
      | none => s.acceptAdopt

/-- ADOPT (R145). -/
def execAdopt (h : ReqHead) (s : State) : Outcome := requestOutcome s h 0x31 [] takeAdopt

/-! ### DISCARD_STAGED -/

/-- The banks with the staged tables discarded (R150). -/
def Banks.discarded (x : Banks) : Banks :=
  { x with staged := Tables.cleared, states := LoadStates.untouched, openLoad := none }

/-- DISCARD_STAGED taken (R150). -/
def takeDiscardStaged (s : State) : Taken :=
  let withdrawn := s.banks.pendingAdoption
  let t := (s.withBanks s.banks.discarded).withdraw
  done t (allTables.map (fun x => (t.banks.states.get x).code) ++ [flag withdrawn])

/-- DISCARD_STAGED (R150). -/
def execDiscardStaged (h : ReqHead) (s : State) : Outcome := requestOutcome s h 0x32 [] takeDiscardStaged

end Sys2Proof.Machine
end

