-- ==== Sys2Proof/Machine/Device.lean ====
section
/-!
DEFINITION. The device-level requests (R180 to R183, R187), SET_MODE (R50) and the requests of the link ports
(R15, R16).
-/

namespace Sys2Proof.Machine

/-! ### IDENTIFY -/

/-- The values of IDENTIFY (R180; logs 12 and 14): the revision number has 1 byte (log 14). -/
def State.identityData (s : State) : List Byte :=
  [Config.familyCode, Config.partCode, b8 Config.revision, b8 s.ident.position.val, b8 s.ident.base, s.nodeByte] ++
    be16 32 ++ be16 4 ++ be16 20 ++ be16 512 ++ be16 16 ++ be16 384 ++ be32 s.now

/-- IDENTIFY taken (R180). -/
def takeIdentify (s : State) : Taken := done s s.identityData

/-- IDENTIFY (R180). -/
def execIdentify (h : ReqHead) (s : State) : Outcome := requestOutcome s h 0x01 [] takeIdentify

/-! ### READ_STATUS -/

/-- The enable set as bits (R183, R191). -/
def NoticeEnables.byte (e : NoticeEnables) : Byte := b8 (packBits [e.restriction, e.governing, e.incident, e.mode])

/-- Page 0 of READ_STATUS (R181; logs 14 and 15): the open load is one byte, its table's code or 0xFF for none
(log 14). "The governing index and the limiter of each path" is sent path by path, index then limiter, ELECTRIC first
(DESIGN CHOICE, log 57). -/
def State.statusPage0 (s : State) : List Byte :=
  [b8 s.ident.position.val, s.nodeByte, s.demand.mode.code, s.demand.app.code] ++ be32 s.demand.appNumber ++
    [s.demand.hold.code, flag s.demand.emergency] ++ be16 s.slide.vref ++ be32 s.now ++
    [b8 s.restrict.govElectric, b8 s.restrict.limElectric, b8 s.restrict.govAir, b8 s.restrict.limAir] ++
    [s.banks.states.curve.code, s.banks.states.bogie.code, s.banks.states.bands.code, s.banks.states.supervision.code] ++
    [match s.banks.openLoad with | some t => t.code | none => 0xFF] ++
    [flag s.banks.pendingAdoption, flag s.banks.active.isSome] ++ be16 s.banks.adoptions ++
    [b8 s.hist.capture.code] ++ be16 s.hist.queue.length ++ [flag s.hist.scan.isSome, flag s.storeUnavailable] ++
    [s.mgmt.noticeAddress, portCode s.mgmt.noticeSide, s.mgmt.enables.byte] ++ be16 s.mgmt.notices.length ++
    be16 s.mgmt.malformed

/-- The six fields of a match entry (R32, R181). -/
def MatchEntry.bytes (m : MatchEntry) : List Byte := [flag m.enable, m.kind, m.source, b8 m.offset, m.value, m.mask]

/-- Page 1 of READ_STATUS (R181). -/
def State.statusPage1 (s : State) : List Byte :=
  s.cls.matchers.toList.flatMap MatchEntry.bytes ++
    be32 (maskOf (s.restrict.entries.toList.map (fun e => e.pending))) ++
    be32 (maskOf (s.restrict.entries.toList.map (fun e => e.latched)))

/-- READ_STATUS taken (R181). -/
def takeReadStatus (page : Byte) (s : State) : Taken :=
  if page = 0 then done s s.statusPage0 else if page = 1 then done s s.statusPage1 else refuse s .invalid

/-- READ_STATUS (R181). -/
def execReadStatus (h : ReqHead) (page : Byte) (s : State) : Outcome :=
  requestOutcome s h 0x02 [page] (takeReadStatus page)

/-! ### SET_MODE -/

/-- V_min as SET_MODE reports it: 0 while the active bank is empty (R182). -/
def State.reportedVMin (s : State) : Nat := match s.banks.active with
  | none => 0
  | some b => b.supervision.vMin

/-- The values of every SET_MODE reply: mode and application state after the request, Vref and V_min as it
was judged (R182). -/
def modeData (before after : State) : List Byte :=
  [after.demand.mode.code, after.demand.app.code] ++ be16 before.slide.vref ++ be16 before.reportedVMin

/-- A SET_MODE refused, with its values (R182). -/
def refuseMode (s : State) (status : Status) : Taken := (s, ⟨status, modeData s s⟩)

/-- A SET_MODE taken, with its values (R182). -/
def doneMode (before after : State) : Taken := done after (modeData before after)

/-- SET_MODE to ISOLATED (R50). -/
def takeSetIsolated (s : State) : Taken := match s.demand.mode with
  | .transparent => refuseMode s .invalid
  | .isolated => doneMode s s
  | .active =>
    if s.demand.app = .released ∧ s.slide.vref < s.vMin then doneMode s s.leaveActive else refuseMode s .busy

/-- SET_MODE to ACTIVE (R50). -/
def takeSetActive (s : State) : Taken := match s.demand.mode with
  | .transparent => refuseMode s .invalid
  | .active => doneMode s s
  | .isolated => doneMode s (s.enterActive .isolated)

/-- SET_MODE taken (R50, R182). -/
def takeSetMode (target : Byte) (s : State) : Taken :=
  if target = 1 then takeSetActive s else if target = 2 then takeSetIsolated s else refuseMode s .invalid

/-- SET_MODE (R50, R182). -/
def execSetMode (h : ReqHead) (target : Byte) (s : State) : Outcome :=
  requestOutcome s h 0x03 [target] (takeSetMode target)

/-! ### SET_NOTICE -/

/-- An enable set read from its bits (R191). -/
def NoticeEnables.ofByte (b : Byte) : NoticeEnables := ⟨b.getLsbD 0, b.getLsbD 1, b.getLsbD 2, b.getLsbD 3⟩

/-- The responder after SET_NOTICE (R183). -/
def Mgmt.noticed (m : Mgmt) (address : Byte) (side : PortId) (e : NoticeEnables) : Mgmt :=
  { m with
    noticeAddress := address, noticeSide := side, enables := e
    notices := if address = 0 then [] else m.notices.filter (fun x => e.on x.kind) }

/-- SET_NOTICE taken (R183): a set bit that the layout does not name is a format error (R189). -/
def takeSetNotice (port : PortId) (address enables : Byte) (s : State) : Taken :=
  if 16 ≤ enables.toNat ∨ 126 < address.toNat ∨ address = s.nodeByte then refuse s .invalid
  else
    let t := (s.withMgmt (s.mgmt.noticed address port (NoticeEnables.ofByte enables))).callOffer
    done t ([address, portCode port, t.mgmt.enables.byte] ++ be16 t.mgmt.notices.length)

/-- SET_NOTICE (R183). -/
def execSetNotice (h : ReqHead) (address enables : Byte) (s : State) : Outcome :=
  requestOutcome s h 0x04 [address, enables] (takeSetNotice h.port address enables)

/-! ### RESTART -/

/-- A port after RESTART (R18, R34). -/
def Port.restarted (p : Port) (now : Time) (timer : Option Timer) : Port :=
  { p with
    command := [], forward := [], fairness := 0, crcRejects := 0, lengthRejects := 0, forwardDrops := 0
    framesSent := 0, unknownSources := 0, lastArrival := now, silenceTimer := timer, silent := false }

/-- A station entry after RESTART (R34). -/
def Station.restarted (e : Station) (now : Time) : Station :=
  { e with
    lastSeq := none, lastAccept := now, state := .new, lastStatus := .ok, gapCount := 0, staleCount := 0
    rejectCount := 0, freshTimer := none, concealTimer := none }

/-- The classifier after RESTART (R34). -/
def Classifier.restarted (c : Classifier) (now : Time) : Classifier :=
  { c with
    stations := c.stations.map (fun e => e.restarted now), samples := Vec.fill 12 AxleSample.reset
    radarDoubtful := 0 }

/-- A slide record after RESTART (R76); its period start, which R76 does not name, is kept (log 47). -/
def SlideRecord.restarted (r : SlideRecord) : SlideRecord :=
  { r with state := .clear, factor := 1000, suspect := 0, episodeTime := 0, allowance := none }

/-- A restriction entry with its working fields and force cleared (item 1 of R135). -/
def Entry.restarted (e : Entry) : Entry :=
  { e with force := false, latched := false, condition := false, pending := false }

/-- The recorder's taking of RESTART (R162): the window of an incident in POST is cut; the cursor is NONE. -/
def State.restartRecorder (s : State) : State :=
  let s1 := s.withHist { s.hist with cursor := none }
  match s.hist.capture, s.hist.current with
  | .post, some i => s1.beginCommit { i with postCut := true }
  | _, _ => s1

/-- Each block's working state reset, its configuration kept (step 2 of R187, R188). -/
def State.restartBlocks (s : State) : State :=
  let s1 := s.withLink { s.link with
    a := s.link.a.restarted s.now s.silenceTimer, b := s.link.b.restarted s.now s.silenceTimer }
  let s2 := s1.withCls (s.cls.restarted s.now)
  let s3 := s2.withDemand { s.demand with
    lLast := 0, iLast := 0, hold := .startHold, emergency := false, releaseTimer := none }
  let s4 := s3.withSlide { s.slide with axles := s.slide.axles.map SlideRecord.restarted }
  let s5 := (s4.withAir Air.reset).withBlend Blend.reset
  let s6 := s5.withBanks { s.banks with openLoad := none, pendingAdoption := false }
  (s6.withMgmt { s.mgmt with notices := [], malformed := 0 }).withRestrict
    { s.restrict with entries := s.restrict.entries.map Entry.restarted }

/-- The numbers of all restriction entries. -/
def allEntries : List Nat := [1, 2, 3, 4, 5, 6, 7, 8, 9, 10, 11, 12, 13, 14, 15, 16, 17, 18, 19, 20]

/-- The mode after RESTART (step 5 of R187, R52). -/
def State.restartMode (s : State) : State :=
  if s.banks.active.isSome then s.enterActive s.demand.mode
  else s.withDemand { s.demand with mode := .transparent }

/-- RESTART taken (R187). -/
def takeRestart (s : State) : Taken :=
  if s.demand.app ≠ .released then refuse s .busy
  else
    let t := (((s.restartRecorder.restartBlocks).handOn allEntries).openApplication).restartMode
    done t (be32 t.demand.appNumber ++ [t.demand.mode.code])

/-- RESTART (R187). -/
def execRestart (h : ReqHead) (s : State) : Outcome := requestOutcome s h 0x05 [] takeRestart

/-! ### The link ports -/

/-- A port's counts cleared (R15). -/
def Port.cleared (p : Port) : Port :=
  { p with crcRejects := 0, lengthRejects := 0, forwardDrops := 0, framesSent := 0, unknownSources := 0 }

/-- A port's threshold written: 0 leaves it, above 16 is clamped (R15). -/
def Port.thresholded (p : Port) (v : Nat) : Port := if v = 0 then p else { p with threshold := min v 16 }

/-- SET_PORT taken (R15): FORWARD_CONGESTED is reassessed in settling (R7), and an offering follows for the
notice side (R185). -/
def takeSetPort (port threshold clear : Byte) (s : State) : Taken := match portOfCode port with
  | none => refuse s .invalid
  | some p =>
    let x := (s.port p).thresholded threshold.toNat
    let t := s.putPort p (if clear = 0 then x else x.cleared)
    done (if s.mgmt.noticeSide = p then t.callOffer else t) []

/-- SET_PORT (R15). -/
def execSetPort (h : ReqHead) (port threshold clear : Byte) (s : State) : Outcome :=
  requestOutcome s h 0x10 [port, threshold, clear] (takeSetPort port threshold clear)

/-- The values of READ_PORT (R16; log 14). -/
def Port.data (p : Port) (now : Time) : List Byte :=
  be16 p.crcRejects ++ be16 p.lengthRejects ++ be16 p.forwardDrops ++ be16 p.framesSent ++ be16 p.unknownSources ++
    be16 p.command.length ++ be16 p.forward.length ++ [b8 p.threshold] ++ be16 p.fairness ++
    [flag p.tx.isSome, flag p.silent] ++ be16 (sinceSat now p.lastArrival)

/-- READ_PORT taken (R16). -/
def takeReadPort (port : Byte) (s : State) : Taken := match portOfCode port with
  | none => refuse s .invalid
  | some p => done s ((s.port p).data s.now)

/-- READ_PORT (R16). -/
def execReadPort (h : ReqHead) (port : Byte) (s : State) : Outcome :=
  requestOutcome s h 0x11 [port] (takeReadPort port)

end Sys2Proof.Machine
end

