-- ==== Sys2Proof/Machine/RecorderRequests.lean ====
section
/-!
DEFINITION. The requests of the recorder: SET_RECORDER (R172), READ_INCIDENTS (R170), SET_CURSOR (R168),
READ_RECORDS (R169), PROTECT and UNPROTECT (R166), ERASE_INCIDENT (R167), TRIGGER (R171).
-/

namespace Sys2Proof.Machine

/-- A slot of a slot number, none above 15. -/
def slotOf (b : Byte) : Option (Fin 16) := if h : b.toNat < 16 then some ⟨b.toNat, h⟩ else none

/-- A request on a slot: BUSY while the scan runs, INVALID for a slot number above 15 (section 9.5). -/
def State.onSlot (s : State) (slot : Byte) (take : Fin 16 → Taken) : Taken :=
  if s.hist.scan.isSome then refuse s .busy
  else match slotOf slot with
    | some k => take k
    | none => refuse s .invalid

/-! ### SET_RECORDER -/

/-- Whether SET_RECORDER is refused BUSY (R172). -/
def State.recorderBusy (s : State) : Bool :=
  s.hist.scan.isSome || decide (s.hist.capture ≠ .idle) || !s.hist.queue.isEmpty

/-- The pre-window stored (R172). -/
def storedPre (pre : Nat) : Nat := clamp 0 256 pre

/-- The post-window stored: the two together at most 384 (R172). -/
def storedPost (pre post : Nat) : Nat := min (clamp 0 256 post) (384 - storedPre pre)

/-- SET_RECORDER taken (R172); an unlisted policy is a format error, judged first (R189; log 35). -/
def takeSetRecorder (pre post : BitVec 16) (policy sliding : Byte) (s : State) : Taken :=
  match Policy.ofCode policy with
  | none => refuse s .invalid
  | some p =>
    if s.recorderBusy then refuse s .busy
    else
      let t := s.withHist { s.hist with
        pre := storedPre pre.toNat, post := storedPost pre.toNat post.toNat, policy := p
        slidingTrigger := decide (sliding ≠ 0) }
      done t (be16 t.hist.pre ++ be16 t.hist.post ++ [p.code, flag t.hist.slidingTrigger])

/-- SET_RECORDER (R172). -/
def execSetRecorder (h : ReqHead) (pre post : BitVec 16) (policy sliding : Byte) (s : State) : Outcome :=
  requestOutcome s h 0x38 (word16 pre ++ word16 post ++ [policy, sliding]) (takeSetRecorder pre post policy sliding)

/-! ### READ_INCIDENTS -/

/-- Records in the capture buffer. -/
def State.buffered (s : State) : Nat := match s.hist.current with
  | some i => i.buffer.length
  | none => 0

/-- The current slot in four bits, 15 for none (R170, R192). -/
def State.currentSlot (s : State) : Nat := match s.hist.current with
  | some i => i.slot.val
  | none => 15

/-- The 20 bytes of working state (R192). -/
def State.recorderData (s : State) : List Byte :=
  [b8 (s.hist.capture.code + 4 * s.hist.policy.code.toNat +
      8 * packBits [s.hist.slidingTrigger, s.storeUnavailable, s.hist.current.isSome]),
    b8 (s.currentSlot + 16 * s.hist.queue.length)] ++ be16 s.buffered ++ be16 s.hist.refused ++
    be16 s.hist.dropped ++ be32 s.hist.nextIncident ++ be32 s.hist.nextSeq ++ be16 s.hist.pre ++ be16 s.hist.post

/-- The headers of a slot and the next, if there is one (R170). -/
def State.headerPair (s : State) (k : Fin 16) : List Byte :=
  ((allSlots.drop k.val).take 2).flatMap (fun j => (s.slot j).header.summary)

/-- READ_INCIDENTS taken (R170, R192). -/
def takeReadIncidents (start : Byte) (s : State) : Taken :=
  s.onSlot start (fun k => done s (s.recorderData ++ s.headerPair k))

/-- READ_INCIDENTS (R170). -/
def execReadIncidents (h : ReqHead) (start : Byte) (s : State) : Outcome :=
  requestOutcome s h 0x39 [start] (takeReadIncidents start)

/-! ### SET_CURSOR and READ_RECORDS -/

/-- The readout cursor replaced. -/
def State.putCursor (s : State) (c : Option Cursor) : State := s.withHist { s.hist with cursor := c }

/-- SET_CURSOR taken (R168). -/
def takeSetCursor (slot : Byte) (index : BitVec 16) (s : State) : Taken := s.onSlot slot (fun k =>
  let h := (s.slot k).header
  if h.holdsIncident = true ∧ index.toNat < h.count then
    done (s.putCursor (some ⟨k, index.toNat, false⟩)) h.bytes
  else refuse s .invalid)

/-- SET_CURSOR (R168). -/
def execSetCursor (h : ReqHead) (slot : Byte) (index : BitVec 16) (s : State) : Outcome :=
  requestOutcome s h 0x3A ([slot] ++ word16 index) (takeSetCursor slot index)

/-- The 24 bytes of a cell, free where it holds no record (log 11). -/
def State.cellBytes (s : State) (k : Fin 16) (j : Nat) : List Byte := match (s.slot k).cell j with
  | some c => c.record.bytes
  | none => (List.range 24).map (fun b => Config.blankCellByte k.val j b)

/-- The reply of READ_RECORDS (R192): slot, index of the first record, number and END, records. With no record,
the slot and the index are the cursor's own (log 48). -/
def State.recordsData (s : State) (c : Cursor) (n : Nat) (atEnd : Bool) : List Byte :=
  [b8 c.slot.val] ++ be16 c.index ++ [b8 (n + if atEnd then 128 else 0)] ++
    (List.range n).flatMap (fun j => s.cellBytes c.slot (c.index + j))

/-- READ_RECORDS taken (R169). -/
def takeReadRecords (s : State) : Taken :=
  if s.hist.scan.isSome then refuse s .busy
  else match s.hist.cursor with
    | none => refuse s .noCursor
    | some c =>
      if c.atEnd then done s (s.recordsData c 0 true)
      else
        let count := (s.slot c.slot).header.count
        if count ≤ c.index + 2 then
          done (s.putCursor (some { c with index := count - 1, atEnd := true }))
            (s.recordsData c (count - c.index) true)
        else done (s.putCursor (some { c with index := c.index + 2 })) (s.recordsData c 2 false)

/-- READ_RECORDS (R169). -/
def execReadRecords (h : ReqHead) (s : State) : Outcome := requestOutcome s h 0x3B [] takeReadRecords

/-! ### PROTECT, UNPROTECT, ERASE_INCIDENT -/

/-- The protected flag of a slot written (R166). -/
def State.guardSlot (s : State) (k : Fin 16) (b : Bool) : State :=
  let h := { (s.slot k).header with isProtected := b }
  if (s.slot k).header.isProtected = b then s else (s.putHeader k h).pushOp k .guard h

/-- PROTECT or UNPROTECT taken (R166); the reply carries the header in force after all that the change of the flag
hands on, a claim of the slot at a fall of STORE_UNAVAILABLE among it (R177; logs 8 and 20). -/
def takeGuard (b : Bool) (slot : Byte) (s : State) : Taken := s.onSlot slot (fun k =>
  if (s.slot k).header.holdsIncident then
    let t := (s.guardSlot k b).settle
    done t (t.slot k).header.bytes
  else refuse s .refused)

/-- PROTECT (R166). -/
def execProtect (h : ReqHead) (slot : Byte) (s : State) : Outcome := requestOutcome s h 0x3C [slot] (takeGuard true slot)

/-- UNPROTECT (R166). -/
def execUnprotect (h : ReqHead) (slot : Byte) (s : State) : Outcome :=
  requestOutcome s h 0x3D [slot] (takeGuard false slot)

/-- The erase of a slot taken (R167): the slot is ERASING at once; its header write and the erase of its
record cells start now, or are held while a header write of the slot is in progress (R166). -/
def State.beginErase (s : State) (k : Fin 16) : State :=
  let h := { (s.slot k).header with state := .erasing, isProtected := false }
  let s1 := (s.putHeader k h).pushOp k .eraseBegin h
  (if (s.slot k).ops.isEmpty then s1.startErase k else s1).leaveSlot k

/-- ERASE_INCIDENT taken (R167). -/
def takeEraseIncident (slot : Byte) (s : State) : Taken := s.onSlot slot (fun k =>
  if (s.slot k).header.holdsIncident = true ∧ (s.slot k).header.isProtected = false then done (s.beginErase k) []
  else refuse s .refused)

/-- ERASE_INCIDENT (R167). -/
def execEraseIncident (h : ReqHead) (slot : Byte) (s : State) : Outcome :=
  requestOutcome s h 0x3E [slot] (takeEraseIncident slot)

/-! ### TRIGGER -/

/-- The outcome of a trigger in its reply (R171; logs 14 and 15). -/
def TriggerOutcome.data : TriggerOutcome → List Byte
  | .opened slot number => [0, b8 slot.val] ++ be32 number
  | .joined slot => [1, b8 slot.val]
  | .queued position => [2, b8 position]
  | .refused => [3]
  | .dropped => [4]

/-- TRIGGER taken (R171): the trigger, then the MARK record; the reply carries the record's sequence. -/
def takeTriggerRequest (h : ReqHead) (subject : Byte) (mark : List Byte) (s : State) : Taken :=
  if mark.length ≤ 12 then
    let s1 := s.sendTrigger .request subject
    let s2 := s1.writeRecord .mark subject ([h.src] ++ word16 h.tag ++ padTo 11 (mark.take 11))
    done s2 ((match s1.work.outcome with | some o => o.data | none => []) ++ be32 s.hist.nextSeq)
  else refuse s .invalid

/-- TRIGGER (R171). -/
def execTrigger (h : ReqHead) (subject : Byte) (mark : List Byte) (s : State) : Outcome :=
  requestOutcome s h 0x3F (subject :: mark) (takeTriggerRequest h subject mark)

end Sys2Proof.Machine
end

