-- ==== Sys2Proof/Machine/RestrictRequests.lean ====
section
/-!
DEFINITION. The requests of the restriction table: SET_RESTRICTION (R130), READ_RESTRICTIONS (R134),
ACK_RESTRICTIONS (R125), SET_LIMITER (R129).
-/

namespace Sys2Proof.Machine

/-! ### SET_RESTRICTION -/

/-- The field-select set and the values of SET_RESTRICTION (R191). -/
structure RestrictParams where
  select : Byte
  enable : Byte
  invert : Byte
  priority : Byte
  path : Byte
  action : BitVec 16
  trigger : Byte
  edge : Byte
  force : Byte
deriving DecidableEq, Repr

/-- Step 1 of R130: the selected path and notice edge must be listed. -/
def RestrictParams.codesOk (x : RestrictParams) : Bool :=
  (!x.select.getLsbD 3 || (Path.ofCode x.path).isSome) && (!x.select.getLsbD 6 || (NoticeEdge.ofCode x.edge).isSome)

/-- Step 2 of R130: each selected field written, the others kept; priority and action clamped (R119). -/
def RestrictParams.apply (x : RestrictParams) (e : Entry) : Entry :=
  { e with
    enable := if x.select.getLsbD 0 then decide (x.enable ≠ 0) else e.enable
    invert := if x.select.getLsbD 1 then decide (x.invert ≠ 0) else e.invert
    priority := if x.select.getLsbD 2 then clamp 0 15 x.priority.toNat else e.priority
    path := if x.select.getLsbD 3 then (Path.ofCode x.path).getD e.path else e.path
    action := if x.select.getLsbD 4 then clamp 0 1000 x.action.toNat else e.action
    trigger := if x.select.getLsbD 5 then decide (x.trigger ≠ 0) else e.trigger
    edge := if x.select.getLsbD 6 then (NoticeEdge.ofCode x.edge).getD e.edge else e.edge
    force := if x.select.getLsbD 7 then decide (x.force ≠ 0) else e.force }

/-- Whether an entry number governs one of the two paths. -/
def Restrict.governs (r : Restrict) (k : Nat) (path : Path) : Bool := decide (r.governing path = k)

/-- Whether an entry governs a path both before and after a request (R128, R130 step 4). -/
def governsThrough (before after : Restrict) (k : Nat) : Bool :=
  (before.governs k .electric && after.governs k .electric) || (before.governs k .air && after.governs k .air)

/-- Steps 2 to 4 of R130 on the entry at an index. -/
def State.writeEntry (s : State) (i : Fin 20) (x : RestrictParams) : State :=
  let t := (s.updateEntry i (x.apply (s.entry i))).recomputeGov
  t.callEvalIf (decide ((t.entry i).action ≠ (s.entry i).action) && governsThrough s.restrict t.restrict (i.val + 1))

/-- Every field of an entry as a reply carries it (R130; log 14). -/
def Entry.data (e : Entry) : List Byte :=
  [flag e.enable, flag e.invert, b8 e.priority, e.path.code] ++ be16 e.action ++
    [flag e.trigger, e.edge.code, flag e.force, flag e.condition, flag e.pending, flag e.latched]

/-- SET_RESTRICTION taken (R130). The reply's values are those after all that steps 2 to 4 hand on, a change
of STORE_UNAVAILABLE by the edge's trigger among it (R177). -/
def takeSetRestriction (entry : Byte) (x : RestrictParams) (s : State) : Taken :=
  if h : 1 ≤ entry.toNat ∧ entry.toNat ≤ 20 then
    if x.codesOk then
      let i : Fin 20 := ⟨entry.toNat - 1, by omega⟩
      let t := (s.writeEntry i x).settle
      done t ((t.entry i).data ++ [b8 t.restrict.govElectric, b8 t.restrict.govAir])
    else refuse s .invalid
  else refuse s .invalid

/-- SET_RESTRICTION (R130). -/
def execSetRestriction (h : ReqHead) (entry select enable invert priority path : Byte) (action : BitVec 16)
    (trigger edge force : Byte) (s : State) : Outcome :=
  requestOutcome s h 0x28
    ([entry, select, enable, invert, priority, path] ++ word16 action ++ [trigger, edge, force])
    (takeSetRestriction entry ⟨select, enable, invert, priority, path, action, trigger, edge, force⟩)

/-! ### READ_RESTRICTIONS -/

/-- The four bytes of an entry (R192). -/
def Entry.summary (e : Entry) : List Byte :=
  [b8 (packBits [e.enable, e.invert, e.trigger, e.force, e.condition, e.pending, e.latched]),
    b8 (e.priority % 16 + 16 * e.path.code.toNat + 64 * e.edge.code.toNat)] ++ be16 e.action

/-- READ_RESTRICTIONS taken (R134, R192). -/
def takeReadRestrictions (start : Byte) (s : State) : Taken :=
  if 1 ≤ start.toNat ∧ start.toNat ≤ 20 then
    let es := (s.restrict.entries.toList.drop (start.toNat - 1)).take 8
    done s ([b8 es.length, b8 s.restrict.limElectric, b8 s.restrict.limAir, b8 s.restrict.govElectric,
      b8 s.restrict.govAir] ++ es.flatMap Entry.summary)
  else refuse s .invalid

/-- READ_RESTRICTIONS (R134). -/
def execReadRestrictions (h : ReqHead) (start : Byte) (s : State) : Outcome :=
  requestOutcome s h 0x29 [start] (takeReadRestrictions start)

/-! ### ACK_RESTRICTIONS -/

/-- The latched state of each entry that a mask names cleared, the first of the list having number k (R125). -/
def clearLatched (mask : BitVec 32) : Nat → List Entry → List Entry
  | _, [] => []
  | k, e :: es => (if mask.getLsbD k then { e with latched := false } else e) :: clearLatched mask (k + 1) es

/-- The entries stay as many. -/
theorem length_clearLatched (mask : BitVec 32) (l : List Entry) (k : Nat) :
    (clearLatched mask k l).length = l.length := by
  induction l generalizing k with
  | nil => rfl
  | cons e es ih => simp [clearLatched, ih]

/-- The entries after an acknowledgement (R125). -/
def Restrict.acknowledged (r : Restrict) (mask : BitVec 32) : Restrict :=
  { r with entries := ⟨clearLatched mask 1 r.entries.toList, by rw [length_clearLatched, r.entries.len]⟩ }

/-- Whether a mask names only entries 1..20 (R191). -/
def maskOk (mask : BitVec 32) : Bool := !mask.getLsbD 0 && decide (mask.toNat < 2 ^ 21)

/-- ACK_RESTRICTIONS taken (R125). -/
def takeAckRestrictions (mask : BitVec 32) (s : State) : Taken :=
  if maskOk mask then
    let t := s.withRestrict (s.restrict.acknowledged mask)
    done t (be32 (maskOf (t.restrict.entries.toList.map (fun e => e.latched))))
  else refuse s .invalid

/-- ACK_RESTRICTIONS (R125). -/
def execAckRestrictions (h : ReqHead) (mask : BitVec 32) (s : State) : Outcome :=
  requestOutcome s h 0x2A (be32 mask) (takeAckRestrictions mask)

/-! ### SET_LIMITER -/

/-- A path's limiter written, clamped to 15 (R129). -/
def Restrict.limited (r : Restrict) (path : Path) (v : Nat) : Restrict := match path with
  | .electric => { r with limElectric := min v 15 }
  | .air => { r with limAir := min v 15 }
  | .report => r

/-- The limiters and governing indices (R129). -/
def limiterData (s : State) : List Byte :=
  [b8 s.restrict.limElectric, b8 s.restrict.limAir, b8 s.restrict.govElectric, b8 s.restrict.govAir]

/-- SET_LIMITER taken (R129). -/
def takeSetLimiter (path value : Byte) (s : State) : Taken := match Path.ofCode path with
  | some .electric =>
    let t := (s.withRestrict (s.restrict.limited .electric value.toNat)).recomputeGov
    done t (limiterData t)
  | some .air =>
    let t := (s.withRestrict (s.restrict.limited .air value.toNat)).recomputeGov
    done t (limiterData t)
  | some .report => refuse s .invalid
  | none => refuse s .invalid

/-- SET_LIMITER (R129). -/
def execSetLimiter (h : ReqHead) (path value : Byte) (s : State) : Outcome :=
  requestOutcome s h 0x2B [path, value] (takeSetLimiter path value)

end Sys2Proof.Machine
end

