-- ==== Sys2Proof/Machine/SlideRequests.lean ====
section
/-!
DEFINITION. The scoped requests: READ_AXLE and RESTORE_AXLE (R73, R74), READ_BOGIE (R91, R116, R192).
-/

namespace Sys2Proof.Machine

/-- The own configured axle that a request's AXLE scope names (R73, R74). -/
def State.scopeAxle (s : State) (h : ReqHead) : Option (Fin 3) :=
  if h.scopeKind = 1 then (s.ownIndex h.scopeNumber.toNat).filter (fun i => s.configured i) else none

/-- The remaining allowance of an axle (R74), of the T_slide_max its episode is held to (R75). -/
def SlideRecord.remaining (r : SlideRecord) (tMax : Nat) (now : Time) : Nat :=
  r.limit tMax - r.episodeTime - (if r.state = .sliding then since now r.periodStart else 0)

/-- The values of READ_AXLE (R74; log 14). -/
def State.axleData (s : State) (b : Tables) (i : Fin 3) : List Byte :=
  let r := s.axle i
  let x := s.ownSample i
  [r.state.code] ++ be16 r.factor ++ be16 r.suspect ++ be16 r.episodeTime ++ be32 r.periodStart ++
    be16 r.episodes ++ be16 r.lastSlip ++ be16 r.lastCreep ++ be16 (r.remaining b.supervision.tSlideMax s.now) ++
    [x.state.code] ++ be16 x.lastGood ++ be16 x.doubtful ++
    [match bandIndex b.bands s.slide.vref with | some k => b8 k | none => 0xFF] ++
    be16 s.slide.vref ++ be16 s.slide.acc ++ be16 (sinceSat s.now s.slide.lastUpdate) ++ [flag s.slide.refLost] ++
    be16 s.slide.radarSpeed

/-- READ_AXLE taken (R74). -/
def takeReadAxle (h : ReqHead) (s : State) : Taken := match s.scopeAxle h, s.banks.active with
  | some i, some b => done s (s.axleData b i)
  | _, _ => refuse s .invalid

/-- READ_AXLE (R74). -/
def execReadAxle (h : ReqHead) (s : State) : Outcome := requestOutcome s h 0x20 [] (takeReadAxle h)

/-- RESTORE_AXLE taken (R73). An axle whose sample is STALE makes two changes, to CLEAR and on to UNSENSED: both AXLE
records are written first, and the aggregates and the sequencer are then handed on once, not after each change (R71, R72;
DESIGN CHOICE, log 55). -/
def takeRestoreAxle (h : ReqHead) (s : State) : Taken := match s.scopeAxle h with
  | none => refuse s .invalid
  | some i =>
    if s.demand.app ≠ .released then refuse s .busy
    else if (s.axle i).state ≠ .isolated then refuse s .refused
    else done ((s.returnAxle i).handAxles false true) []

/-- RESTORE_AXLE (R73). -/
def execRestoreAxle (h : ReqHead) (s : State) : Outcome := requestOutcome s h 0x21 [] (takeRestoreAxle h)

/-! ### READ_BOGIE -/

/-- Part 0: the bogie values of R116 (log 27). -/
def State.bogiePart0 (s : State) : List Byte :=
  let w := s.blend.work
  let c := s.blend.pressure.content
  be16 w.level ++ be16 w.independent ++ [flag w.emergency, w.hold.code] ++ be16 w.vref ++ be16 w.re ++ opt16 w.ra ++
    [b8 s.restrict.govElectric, b8 s.restrict.govAir] ++ be16 w.fDem ++ be16 w.c ++ be16 w.d ++ be16 s.blend.fPrev ++
    be16 w.sumU ++ be16 w.fAir ++ be16 w.pAuto ++ be16 w.pInd ++ be16 w.pSet ++ be16 c.pressure ++
    [c.phase.code, flag c.emergency, flag s.blend.handover.isSome] ++ timerLeft s.now s.blend.handover

/-- The remaining budget as reported (R91). -/
def State.remainingBudget (s : State) : Nat :=
  s.dumpBudget - s.air.used - (if s.air.state = .dump then since s.now s.air.dumpStart else 0)

/-- Which of the dump, hold and step timers runs, and the time to its expiry (R91; log 15). -/
def Air.runningTimer (a : Air) (now : Time) : List Byte := match a.dumpTimer, a.holdTimer, a.stepTimer with
  | some t, _, _ => [0] ++ timerLeft now (some t)
  | none, some t, _ => [1] ++ timerLeft now (some t)
  | none, none, some t => [2] ++ timerLeft now (some t)
  | none, none, none => [0xFF] ++ timerLeft now none

/-- The last-sent content and refresh time of an axle's output (R116). -/
def AxleOut.sentBytes (o : AxleOut) (now : Time) : List Byte :=
  (match o.lastSent with
    | some c => be16 c.effort ++ [flag c.slide]
    | none => [0xFF, 0xFF, 0xFF]) ++ timerLeft now o.refresh

/-- The last-sent content and refresh time of the pressure output (R116). -/
def PressureOut.sentBytes (o : PressureOut) (now : Time) : List Byte :=
  (match o.lastSent with
    | some c => be16 c.pressure ++ [c.phase.code, flag c.emergency]
    | none => [0xFF, 0xFF, 0xFF, 0xFF]) ++ timerLeft now o.refresh

/-- Part 1: the values of R91 and the four outputs' last-sent contents and refresh times. -/
def State.bogiePart1 (s : State) : List Byte :=
  let a := s.air
  [a.state.code, flag a.exhausted] ++ be16 a.used ++ be16 s.remainingBudget ++ be16 a.held ++ be16 a.reapply ++
    be16 a.pSet ++ a.runningTimer s.now ++ be16 a.measured ++ [a.status.code, flag a.mismatchTimer.isSome] ++
    timerLeft s.now a.mismatchTimer ++ [flag (s.sourceValue 13), flag (s.sourceValue 14)] ++
    ownAxles.flatMap (fun i => (s.out i).sentBytes s.now) ++ s.blend.pressure.sentBytes s.now

/-- Parts 2 to 4: the values of one own axle (R116). -/
def State.bogieAxle (s : State) (i : Fin 3) : List Byte :=
  let w := s.blend.work.axles.get i
  let o := s.out i
  [flag (s.configured i), flag w.inService] ++ be16 w.capability ++ be16 w.allotment ++ be16 w.target ++
    be16 o.content.effort ++ opt16 o.pendingEffort ++ be16 o.start ++ be16 w.short ++ be16 o.achieved ++ [o.status.code]

/-- The values of a part, none above 4 (R192). -/
def State.bogiePart (s : State) (part : Byte) : Option (List Byte) :=
  if part = 0 then some s.bogiePart0
  else if part = 1 then some s.bogiePart1
  else if part = 2 then some (s.bogieAxle 0)
  else if part = 3 then some (s.bogieAxle 1)
  else if part = 4 then some (s.bogieAxle 2)
  else none

/-- Whether a served scope reads bogie p: NONE, or BOGIE naming p (R116, R176). -/
def State.scopeBogie (s : State) (h : ReqHead) : Bool :=
  decide (h.scopeKind = 0) ||
    (decide (h.scopeKind = 2) && decide (h.scopeNumber.toNat = s.ident.position.val))

/-- READ_BOGIE taken (R91, R116, R192). -/
def takeReadBogie (h : ReqHead) (part : Byte) (s : State) : Taken := match s.bogiePart part with
  | some data => if s.scopeBogie h then done s data else refuse s .invalid
  | none => refuse s .invalid

/-- READ_BOGIE (R116). -/
def execReadBogie (h : ReqHead) (part : Byte) (s : State) : Outcome :=
  requestOutcome s h 0x22 [part] (takeReadBogie h part)

end Sys2Proof.Machine
end

