-- ==== Sys2Proof/Machine/StationRequests.lean ====
section
/-!
DEFINITION. The requests of the classifier: SET_STATION (R20), CLEAR_STATION and READ_STATION (R21),
SET_MATCH (R33).
-/

namespace Sys2Proof.Machine

/-! ### SET_STATION -/

/-- The parameters of SET_STATION (R191). -/
structure StationParams where
  address : Byte
  role : Byte
  side : Byte
  count : Byte
  b0 : Byte
  b1 : Byte
  b2 : Byte
  b3 : Byte
  fresh : BitVec 16
  conceal : BitVec 16
deriving DecidableEq, Repr

/-- The bound list, the numbers beyond the count ignored (R191). -/
def StationParams.bound (x : StationParams) : List Nat :=
  ([x.b0, x.b1, x.b2, x.b3].take x.count.toNat).map (fun b => b.toNat)

/-- Step 1 of R20: the entry the parameters describe, or none where they are refused INVALID. -/
def StationParams.entry (x : StationParams) (node : Byte) (now : Time) : Option Station :=
  match Role.ofCode x.role, portOfCode x.side with
  | some r, some p =>
    if x.address = 0 ∨ 127 ≤ x.address.toNat ∨ x.address = node then none
    else if x.count.toNat ≤ 4 ∧ r.boundOk x.bound = true then
      some (Station.written x.address r p x.bound x.fresh.toNat x.conceal.toNat now)
    else none
  | _, _ => none

/-- Whether an entry, in place of one of its address, breaks a binding rule (step 3 of R20). -/
def State.breaksBinding (s : State) (e : Station) : Bool :=
  s.cls.stations.any (fun x => decide (x.address ≠ e.address) && e.conflicts x)

/-- An entry written, with its effects (R20, R22). -/
def State.writeStation (s : State) (e : Station) : State :=
  let old := s.station e.address
  (s.withCls { s.cls with stations := replaceStation e s.cls.stations }).edited (old.toList ++ [e]) old

/-- SET_STATION taken (R20). -/
def takeSetStation (x : StationParams) (s : State) : Taken := match x.entry s.nodeByte s.now with
  | none => refuse s .invalid
  | some e =>
    if s.editBusy then refuse s .busy
    else if s.breaksBinding e then refuse s .invalid
    else if (s.station e.address).isNone = true ∧ Config.stationEntries ≤ s.cls.stations.length then
      refuse s .refused
    else done (s.writeStation e) []

/-- The parameter bytes of SET_STATION (R191). -/
def StationParams.bytes (x : StationParams) : List Byte :=
  [x.address, x.role, x.side, x.count, x.b0, x.b1, x.b2, x.b3] ++ word16 x.fresh ++ word16 x.conceal

/-- SET_STATION (R20). -/
def execSetStation (h : ReqHead) (address role side count b0 b1 b2 b3 : Byte) (fresh conceal : BitVec 16)
    (s : State) : Outcome :=
  let x : StationParams := ⟨address, role, side, count, b0, b1, b2, b3, fresh, conceal⟩
  requestOutcome s h 0x18 x.bytes (takeSetStation x)

/-! ### CLEAR_STATION and READ_STATION -/

/-- CLEAR_STATION taken (R21, R22). -/
def takeClearStation (address : Byte) (s : State) : Taken :=
  if s.editBusy then refuse s .busy
  else match s.station address with
    | none => refuse s .refused
    | some e =>
      done ((s.withCls { s.cls with
        stations := s.cls.stations.filter (fun x => decide (x.address ≠ address)) }).edited [e] (some e)) []

/-- CLEAR_STATION (R21). -/
def execClearStation (h : ReqHead) (address : Byte) (s : State) : Outcome :=
  requestOutcome s h 0x19 [address] (takeClearStation address)

/-- An address placed in an ascending list. -/
def insertAddress (a : Byte) : List Byte → List Byte
  | [] => [a]
  | b :: bs => if a.toNat ≤ b.toNat then a :: b :: bs else b :: insertAddress a bs

/-- The addresses of the entries in ascending order (R21). -/
def State.addresses (s : State) : List Byte := s.cls.stations.foldr (fun e l => insertAddress e.address l) []

/-- What an entry of a role adds to its reply (R21): the samples of an AXLE_UNIT's axles, the radar doubtful
count of a RADAR. -/
def State.stationExtra (s : State) (e : Station) : List Byte := match e.role with
  | .axleUnit => e.bound.flatMap (fun k =>
    if h : k < 12 then
      let x := s.sample ⟨k, h⟩
      [x.state.code] ++ be16 x.lastGood ++ be16 x.doubtful
    else [])
  | .radar => be16 s.cls.radarDoubtful
  | .cab => []
  | .converter => []
  | .valve => []
  | .peer => []

/-- The values of an entry (R21; log 14). -/
def State.stationData (s : State) (e : Station) : List Byte :=
  [e.address, e.role.code, portCode e.side, b8 e.bound.length] ++ e.bound.map b8 ++
    be16 e.freshLimit ++ be16 e.concealLimit ++ opt16 (e.lastSeq.map (fun b => b.toNat)) ++
    be16 (sinceSat s.now e.lastAccept) ++ [e.state.code] ++
    (if e.role = .converter then [e.lastStatus.code] else []) ++
    be16 e.gapCount ++ be16 e.staleCount ++ be16 e.rejectCount ++ s.stationExtra e

/-- READ_STATION taken (R21). -/
def takeReadStation (address : Byte) (s : State) : Taken :=
  if address = 0 then done s (be16 s.cls.stations.length ++ s.addresses)
  else match s.station address with
    | some e => done s (s.stationData e)
    | none => refuse s .refused

/-- READ_STATION (R21). -/
def execReadStation (h : ReqHead) (address : Byte) (s : State) : Outcome :=
  requestOutcome s h 0x1A [address] (takeReadStation address)

/-! ### SET_MATCH -/

/-- A match entry written whole (R33). -/
def State.putMatch (s : State) (k : Fin 4) (m : MatchEntry) : State :=
  s.withCls { s.cls with matchers := s.cls.matchers.set k m }

/-- SET_MATCH taken (R33). -/
def takeSetMatch (entry enable kind source offset value mask : Byte) (s : State) : Taken :=
  if h : entry.toNat < 4 then
    if 126 < source.toNat ∨ 55 < offset.toNat then refuse s .invalid
    else done (s.putMatch ⟨entry.toNat, h⟩ ⟨decide (enable ≠ 0), kind, source, offset.toNat, value, mask⟩) []
  else refuse s .invalid

/-- SET_MATCH (R33). -/
def execSetMatch (h : ReqHead) (entry enable kind source offset value mask : Byte) (s : State) : Outcome :=
  requestOutcome s h 0x1B [entry, enable, kind, source, offset, value, mask]
    (takeSetMatch entry enable kind source offset value mask)

end Sys2Proof.Machine
end

