-- ==== Sys2Proof/Machine/Arrival.lean ====
section
/-!
DEFINITION. The arrival of a frame as bytes (R4), sorted by its KIND (R23) and, for a request, by its code
(R177, R191); and the five policed kinds and the unknown request code as commands of their own.
-/

namespace Sys2Proof.Machine

/-! ### Requests by code -/

/-- A request refused at step 2 of R177: its reply carries no values, a SET_MODE's neither (log 44). -/
def takeInvalid : State → Taken := fun s => refuse s .invalid

/-- Parameters of no byte (step 2 of R177). -/
def noParams (take : State → Taken) : List Byte → State → Taken
  | [] => take
  | _ :: _ => takeInvalid

/-- Parameters of one byte (step 2 of R177). -/
def oneParam (take : Byte → State → Taken) : List Byte → State → Taken
  | [a] => take a
  | _ => takeInvalid

/-- Parameters of two bytes. -/
def twoParams (take : Byte → Byte → State → Taken) : List Byte → State → Taken
  | [a, b] => take a b
  | _ => takeInvalid

/-- The parameters of SET_PORT (R191). -/
def portParams : List Byte → State → Taken
  | [a, b, c] => takeSetPort a b c
  | _ => takeInvalid

/-- The parameters of SET_STATION (R191). -/
def stationParams : List Byte → State → Taken
  | [a, r, d, n, b0, b1, b2, b3, f1, f0, c1, c0] =>
    takeSetStation ⟨a, r, d, n, b0, b1, b2, b3, readWord f1 f0, readWord c1 c0⟩
  | _ => takeInvalid

/-- The parameters of SET_MATCH (R191). -/
def matchParams : List Byte → State → Taken
  | [a, b, c, d, e, f, g] => takeSetMatch a b c d e f g
  | _ => takeInvalid

/-- The parameters of SET_RESTRICTION (R191). -/
def restrictionParams : List Byte → State → Taken
  | [n, sel, en, inv, pri, path, v1, v0, trig, edge, force] =>
    takeSetRestriction n ⟨sel, en, inv, pri, path, readWord v1 v0, trig, edge, force⟩
  | _ => takeInvalid

/-- The parameters of ACK_RESTRICTIONS (R191). -/
def ackParams : List Byte → State → Taken
  | [a, b, c, d] => takeAckRestrictions (readLong a b c d)
  | _ => takeInvalid

/-- The parameters of LOAD_SEGMENT (R191): the contents' length is judged by R142. -/
def loadParams : List Byte → State → Taken
  | sel :: contents => takeLoadSegment sel contents
  | [] => takeInvalid

/-- The parameters of SET_RECORDER (R191). -/
def recorderParams : List Byte → State → Taken
  | [p1, p0, q1, q0, policy, sliding] => takeSetRecorder (readWord p1 p0) (readWord q1 q0) policy sliding
  | _ => takeInvalid

/-- The parameters of SET_CURSOR (R191). -/
def cursorParams : List Byte → State → Taken
  | [slot, i1, i0] => takeSetCursor slot (readWord i1 i0)
  | _ => takeInvalid

/-- The parameters of TRIGGER (R191). -/
def triggerParams (h : ReqHead) : List Byte → State → Taken
  | subject :: mark => takeTriggerRequest h subject mark
  | [] => takeInvalid

/-- What a request's owner does, by its code (steps 2 and 3 of R177, R191). -/
def takeOf (h : ReqHead) (code : Byte) (ps : List Byte) : State → Taken := match code.toNat with
  | 0x01 => noParams takeIdentify ps
  | 0x02 => oneParam takeReadStatus ps
  | 0x03 => oneParam takeSetMode ps
  | 0x04 => twoParams (takeSetNotice h.port) ps
  | 0x05 => noParams takeRestart ps
  | 0x10 => portParams ps
  | 0x11 => oneParam takeReadPort ps
  | 0x18 => stationParams ps
  | 0x19 => oneParam takeClearStation ps
  | 0x1A => oneParam takeReadStation ps
  | 0x1B => matchParams ps
  | 0x20 => noParams (takeReadAxle h) ps
  | 0x21 => noParams (takeRestoreAxle h) ps
  | 0x22 => oneParam (takeReadBogie h) ps
  | 0x28 => restrictionParams ps
  | 0x29 => oneParam takeReadRestrictions ps
  | 0x2A => ackParams ps
  | 0x2B => twoParams takeSetLimiter ps
  | 0x30 => loadParams ps
  | 0x31 => noParams takeAdopt ps
  | 0x32 => noParams takeDiscardStaged ps
  | 0x38 => recorderParams ps
  | 0x39 => oneParam takeReadIncidents ps
  | 0x3A => cursorParams ps
  | 0x3B => noParams takeReadRecords ps
  | 0x3C => oneParam (takeGuard true) ps
  | 0x3D => oneParam (takeGuard false) ps
  | 0x3E => oneParam takeEraseIncident ps
  | 0x3F => triggerParams h ps
  | _ => takeInvalid

/-- Whether a request continues the open load: a LOAD_SEGMENT that names its next segment (R142, R144). -/
def continuesOf (code : Byte) (ps : List Byte) : State → Bool :=
  if code = 0x30 then
    match ps with
    | sel :: _ => loadContinues sel
    | [] => neverContinues
  else neverContinues

/-! ### A frame at the classifier -/

/-- A DEMAND frame at the classifier (R24, R190). -/
def State.consumeDemandFrame (s : State) (p : PortId) (f : Frame) : State := match f.payload with
  | [l1, l0, i1, i0, flags] => s.consumeDemand p f.src f.seq (readWord l1 l0) (readWord i1 i0) flags
  | _ => s.policeMisformed p f.src f.seq .cab

/-- An AXLE_SPEED frame at the classifier (R24, R190). -/
def State.consumeSpeedFrame (s : State) (p : PortId) (f : Frame) : State := match parseSamples f.payload with
  | some xs => s.consumeSpeeds p f.src f.seq xs
  | none => s.policeMisformed p f.src f.seq .axleUnit

/-- A GROUND_SPEED frame at the classifier (R24, R190). -/
def State.consumeGroundFrame (s : State) (p : PortId) (f : Frame) : State := match f.payload with
  | [v1, v0, q] => s.consumeGround p f.src f.seq (readWord v1 v0) q
  | _ => s.policeMisformed p f.src f.seq .radar

/-- An EFFORT_REPORT frame at the classifier (R24, R190). -/
def State.consumeEffortFrame (s : State) (p : PortId) (f : Frame) : State := match f.payload with
  | [a, e1, e0, st] => s.consumeEffort p f.src f.seq a (readWord e1 e0) st
  | _ => s.policeMisformed p f.src f.seq .converter

/-- A PRESSURE_REPORT frame at the classifier (R24, R190). -/
def State.consumePressureFrame (s : State) (p : PortId) (f : Frame) : State := match f.payload with
  | [b, v1, v0, st] => s.consumePressure p f.src f.seq b (readWord v1 v0) st
  | _ => s.policeMisformed p f.src f.seq .valve

/-- A MGMT_REQUEST frame at the classifier (R23): one shorter than the request head is malformed (R175). -/
def State.consumeRequestFrame (s : State) (p : PortId) (f : Frame) : State :=
  if f.dest = s.nodeByte ∨ f.dest = 127 then
    match f.payload with
    | code :: t1 :: t0 :: kind :: number :: ps =>
      let h : ReqHead := ⟨p, f.dest, f.src, f.seq, readWord t1 t0, kind, number⟩
      s.consumeRequest h code (continuesOf code ps) (takeOf h code ps)
    | _ => s.countMalformed
  else s

/-- A frame sorted by its KIND (R23). -/
def State.consumeFrame (s : State) (p : PortId) (f : Frame) : State :=
  if f.kind = kindDemand then s.consumeDemandFrame p f
  else if f.kind = kindAxleSpeed then s.consumeSpeedFrame p f
  else if f.kind = kindGroundSpeed then s.consumeGroundFrame p f
  else if f.kind = kindEffortReport then s.consumeEffortFrame p f
  else if f.kind = kindPressureReport then s.consumePressureFrame p f
  else if f.kind = kindRequest then s.consumeRequestFrame p f
  else s.consumePeer p f.src f.seq

/-! ### Commands -/

/-- A length reject counted (R4, R12). -/
def State.countLength (s : State) (p : PortId) : State :=
  s.putPort p { s.port p with lengthRejects := bump (s.port p).lengthRejects }

/-- A CRC reject counted (R4, R12). -/
def State.countCrc (s : State) (p : PortId) : State :=
  s.putPort p { s.port p with crcRejects := bump (s.port p).crcRejects }

/-- FRAME_ARRIVAL (R4): a rejected frame is counted and discarded; a frame that passes is matched,
forwarded and consumed. -/
def execFrameArrival (p : PortId) (bytes : List Byte) (s : State) : Outcome := match checkArrival bytes with
  | .lengthReject => .next (s.countLength p)
  | .crcReject => .next (s.countCrc p)
  | .frame f => .next (s.arrive p f (fun t => t.consumeFrame p f))

/-- DEMAND (R35): the arrival of a frame of that kind, with the CRC of its contents. -/
def execDemand (h : FrameHead) (service independent : BitVec 16) (flags : Byte) (s : State) : Outcome :=
  .next (s.arrive h.port (demandFrame h service independent flags)
    (fun t => t.consumeDemand h.port h.src h.seq service independent flags))

/-- AXLE_SPEED (R29). -/
def execAxleSpeed (h : FrameHead) (samples : List SpeedSample) (s : State) : Outcome :=
  .next (s.arrive h.port (speedFrame h samples) (fun t => t.consumeSpeeds h.port h.src h.seq samples))

/-- GROUND_SPEED (R54). -/
def execGroundSpeed (h : FrameHead) (speed : BitVec 16) (quality : Byte) (s : State) : Outcome :=
  .next (s.arrive h.port (groundFrame h speed quality)
    (fun t => t.consumeGround h.port h.src h.seq speed quality))

/-- EFFORT_REPORT (R96). -/
def execEffortReport (h : FrameHead) (axle : Byte) (effort : BitVec 16) (status : Byte) (s : State) : Outcome :=
  .next (s.arrive h.port (effortReportFrame h axle effort status)
    (fun t => t.consumeEffort h.port h.src h.seq axle effort status))

/-- PRESSURE_REPORT (R88). -/
def execPressureReport (h : FrameHead) (bogie : Byte) (pressure : BitVec 16) (status : Byte) (s : State) :
    Outcome :=
  .next (s.arrive h.port (pressureReportFrame h bogie pressure status)
    (fun t => t.consumePressure h.port h.src h.seq bogie pressure status))

/-- UNKNOWN_REQUEST_CODE (R177): refused INVALID at step 2. -/
def execUnknownRequestCode (h : ReqHead) (code : Byte) (params : List Byte) (s : State) : Outcome :=
  requestOutcome s h code params takeInvalid

end Sys2Proof.Machine
end

