-- ==== Sys2Proof/Machine/Expiries.lean ====
section
/-!
DEFINITION. The completion of a transmission (R10) and the expiries of the timers. A command whose timer does
not run, or whose transmitter is idle, finds nothing to do and changes nothing (log 4).
-/

namespace Sys2Proof.Machine

/-! ### Link -/

/-- A transmission ends: the frame is counted as sent (R12) and the transmitter is free (R10). -/
def Port.sent (p : Port) : Port := { p with tx := none, framesSent := bump p.framesSent }

/-- TRANSMISSION_COMPLETE (R10): the arbiter then selects, in settling (log 7). -/
def execTransmissionComplete (p : PortId) (s : State) : Outcome :=
  if (s.port p).tx.isSome then .next (s.putPort p (s.port p).sent).finish else .next s

/-- SILENCE_TIMER_EXPIRY (R13). -/
def execSilenceTimerExpiry (p : PortId) (s : State) : Outcome :=
  if (s.port p).silenceTimer.isSome then
    .next ((s.putPort p { s.port p with silenceTimer := none, silent := true }).handOn [silenceEntry p]).finish
  else .next s

/-! ### Stations and samples -/

/-- STATION_FRESHNESS_EXPIRY (R27). -/
def execStationFreshnessExpiry (a : Byte) (s : State) : Outcome := .next (s.expireFresh a).finish

/-- STATION_CONCEAL_EXPIRY (R27). -/
def execStationConcealExpiry (a : Byte) (s : State) : Outcome := .next (s.expireConceal a).finish

/-- AXLE_FRESHNESS_EXPIRY (R29). -/
def execAxleFreshnessExpiry (g : Fin 12) (s : State) : Outcome := .next (s.expireSample g).finish

/-- AXLE_CONCEAL_EXPIRY (R29). -/
def execAxleConcealExpiry (g : Fin 12) (s : State) : Outcome := .next (s.expireSampleConceal g).finish

/-! ### Demand, speed and slide -/

/-- RELEASE_CONFIRM_EXPIRY (R46): release by timeout. -/
def execReleaseConfirmExpiry (s : State) : Outcome :=
  if s.demand.releaseTimer.isSome = true ∧ s.demand.app = .releasing then
    .next (s.enterReleased causeTimedOut).finish
  else .next s

/-- REFERENCE_LOST_EXPIRY (R57). -/
def execReferenceLostExpiry (s : State) : Outcome :=
  if s.slide.refTimer.isSome then
    .next ((s.withSlide { s.slide with refTimer := none, refLost := true }).handOn [4]).finish
  else .next s

/-- ALLOWANCE_TIMER_EXPIRY (R66): the axle is isolated and the change handed on (R71). -/
def execAllowanceTimerExpiry (i : Fin 3) (s : State) : Outcome :=
  if (s.axle i).allowance.isSome = true ∧ (s.axle i).state = .sliding then
    .next (s.singleAxle i ((s.axle i).isolate s.now)).finish
  else .next s

/-! ### Air sequencer and supervision -/

/-- DUMP_TIMER_EXPIRY (R81). -/
def execDumpTimerExpiry (s : State) : Outcome :=
  if s.air.dumpTimer.isSome then .next (s.moveAir (s.air.onDumpExpiry s.dumpBudget)).finish else .next s

/-- HOLD_TIMER_EXPIRY (R82). -/
def execHoldTimerExpiry (s : State) : Outcome :=
  if s.air.holdTimer.isSome then .next (s.moveAir (s.air.onHoldExpiry s.now s.tSlide)).finish else .next s

/-- The reapply step of the active BOGIE table (R83). -/
def State.reapplyStep (s : State) : Nat := match s.banks.active with
  | none => 0
  | some b => b.bogie.reapplyStep

/-- STEP_TIMER_EXPIRY (R83): an evaluation follows each step (R86, R93). -/
def execStepTimerExpiry (s : State) : Outcome :=
  if s.air.stepTimer.isSome then
    .next ((s.moveAir (s.air.onStepExpiry s.now s.reapplyStep s.tSlide)).callEvalIf
      (decide (s.air.state = .reapply))).finish
  else .next s

/-- MISMATCH_TIMER_EXPIRY (R90). -/
def execMismatchTimerExpiry (s : State) : Outcome :=
  if s.air.mismatchTimer.isSome then
    .next ((s.putAir { s.air with mismatchTimer := none, mismatch := true }).handOn [13]).finish
  else .next s

/-! ### Blend engine -/

/-- HANDOVER_TIMER_EXPIRY (R108): one evaluation without the hold. -/
def execHandoverTimerExpiry (s : State) : Outcome :=
  if s.blend.handover.isSome then .next (s.evaluate true).finish else .next s

/-- An axle output offered again at its refresh (R112). -/
def State.refreshEffort (s : State) (i : Fin 3) : State := match s.converterOf i with
  | some e => s.offerEffort i e
  | none => s.putOut i { s.out i with refresh := none }

/-- The pressure output offered again at its refresh (R112). -/
def State.refreshPressure (s : State) : State := match s.valve with
  | some e => s.offerPressure e
  | none => s.withBlend { s.blend with pressure := { s.blend.pressure with refresh := none } }

/-- Whether an output's refresh timer runs: outputs 0..2 are the axle efforts, 3 the pressure. -/
def State.refreshRuns (s : State) (k : Fin 4) : Bool :=
  if h : k.val < 3 then (s.out ⟨k.val, h⟩).refresh.isSome else s.blend.pressure.refresh.isSome

/-- An output offered again at its refresh (R112). -/
def State.refreshOutput (s : State) (k : Fin 4) : State :=
  if h : k.val < 3 then s.refreshEffort ⟨k.val, h⟩ else s.refreshPressure

/-- REFRESH_TIMER_EXPIRY (R112), which runs in ACTIVE mode alone. -/
def execRefreshTimerExpiry (k : Fin 4) (s : State) : Outcome :=
  if s.refreshRuns k = true ∧ s.isActive = true then .next (s.refreshOutput k).finish else .next s

end Sys2Proof.Machine
end

