-- ==== Sys2Proof/Machine/StoreEvents.lean ====
section
/-!
DEFINITION. The completions of NV operations: claim, commit, protect, erase and scan (R158 to R161, R166,
R167, R173). A completion of an operation that is not in progress changes nothing (log 4).
-/

namespace Sys2Proof.Machine

/-! ### The claim and the commit -/

/-- The claim of the current incident is complete: a commit already waiting begins (R160). -/
def State.claimed (s : State) (k : Fin 16) : State := match s.hist.current with
  | none => s
  | some i =>
    if i.slot = k then
      let i1 := { i with claimDone := true }
      let s1 := s.putIncident i1
      if s.hist.capture = .committing ∧ i.claimDone = false then s1.startCommit i1 else s1
    else s

/-- CLAIM_HEADER_WRITE_COMPLETE (R160). -/
def execClaimHeaderWriteComplete (k : Fin 16) (s : State) : Outcome :=
  match (s.slot k).headOp [.claim] with
  | some op => .next ((s.popOp k op).claimed k).finish
  | none => .next s

/-- The stage operation of the current incident in progress, if any (R160). -/
def State.commitOp (s : State) : Option (Incident × CommitOp) := match s.hist.current with
  | none => none
  | some i => i.op.map (fun op => (i, op))

/-- COMMIT_ERASE_COMPLETE (R160): the cells are blank and stage 2 begins. -/
def execCommitEraseComplete (s : State) : Outcome := match s.commitOp with
  | some (i, .erase _) =>
    .next ((s.putSlot i.slot { s.slot i.slot with cells := blankCells }).commitFrom i 0).finish
  | some (_, .cell _ _) => .next s
  | some (_, .header) => .next s
  | none => .next s

/-- A record of the capture buffer written to its cell with the incident's number (R154, R160). -/
def State.storeRecord (s : State) (i : Incident) (k : Nat) : State := match i.buffer[k]? with
  | some r => s.putSlot i.slot ((s.slot i.slot).writeCell k ⟨i.number, r⟩)
  | none => s

/-- RECORD_CELL_WRITE_COMPLETE (R160): the next cell, or stage 3. -/
def execRecordCellWriteComplete (s : State) : Outcome := match s.commitOp with
  | some (i, .cell k _) => .next ((s.storeRecord i k).commitFrom i (k + 1)).finish
  | some (_, .erase _) => .next s
  | some (_, .header) => .next s
  | none => .next s

/-- Stage 3 complete: the header is in force and in NV, with the next-incident-number (R160, R161). -/
def State.closeSlot (s : State) (k : Fin 16) (op : HeaderOp) : State :=
  let s1 := (s.popOp k op).putHeader k op.content
  s1.withStore { s1.store with nvNext := s1.hist.nextIncident }

/-- The capture state IDLE with an empty buffer (item 3 of R161). -/
def State.goIdle (s : State) : State := s.withHist { s.hist with capture := .idle, current := none }

/-- COMMIT_HEADER_WRITE_COMPLETE (R161): the INCIDENT notice, STORE_UNAVAILABLE, IDLE, the queue. -/
def execCommitHeaderWriteComplete (s : State) : Outcome := match s.hist.current with
  | none => .next s
  | some i => match (s.slot i.slot).headOp [.commit] with
    | some op =>
      .next (((((s.closeSlot i.slot op).placeNotice .incident (b8 i.slot.val) i.number).handOn
        [19]).goIdle).serveQueue).finish
    | none => .next s

/-! ### Protect and erase -/

/-- PROTECT_HEADER_WRITE_COMPLETE (R166): the next held operation of the slot then runs. -/
def execProtectHeaderWriteComplete (k : Fin 16) (s : State) : Outcome :=
  match (s.slot k).headOp [.guard] with
  | some op => .next (s.popOp k op).finish
  | none => .next s

/-- The cells of a slot are blank and its header is written FREE (R167; log 20). -/
def State.freeSlot (s : State) (k : Fin 16) : State :=
  (s.putSlot k { s.slot k with cells := blankCells, header := Header.free, erase := none }).pushOp k .eraseEnd
    Header.free

/-- ERASE_COMPLETE (R167): STORE_UNAVAILABLE is reassessed. -/
def execEraseComplete (k : Fin 16) (s : State) : Outcome :=
  if (s.slot k).erase.isSome then .next ((s.freeSlot k).handOn [19]).finish else .next s

/-- ERASE_HEADER_WRITE_COMPLETE (R166, R167): the write of ERASING or of FREE. -/
def execEraseHeaderWriteComplete (k : Fin 16) (s : State) : Outcome :=
  match (s.slot k).headOp [.eraseBegin, .eraseEnd] with
  | some op => .next (s.popOp k op).finish
  | none => .next s

/-! ### The start-up scan -/

/-- A header that the scan makes INCOMPLETE (R173). -/
def Header.incomplete (h : Header) (count : Nat) : Header := { h with state := .incomplete, count := count }

/-- A slot's header written by the scan: in force and in NV at the write's completion. -/
def State.scanHeader (s : State) (k : Fin 16) (h : Header) : State :=
  s.putSlot k { s.slot k with header := h, nv := h }

/-- After the scan's last operation STORE_UNAVAILABLE is assessed and the queue served (R173). -/
def State.scanEnded (s : State) : State := if s.hist.scan.isNone then (s.handOn [19]).serveQueue else s

/-- A scan operation completes: the next one of the slot or of a later slot (R173). -/
def State.scanned (s : State) (x : Scan) : State := match x.phase with
  | .writeIncomplete count => (s.scanHeader x.slot ((s.slot x.slot).header.incomplete count)).scanAfter x.slot
  | .erase =>
    (s.putSlot x.slot { s.slot x.slot with cells := blankCells }).putScan x.slot .writeFree Config.writeMax
  | .writeFree => (s.scanHeader x.slot Header.free).scanAfter x.slot

/-- SCAN_OPERATION_COMPLETE (R173). -/
def execScanOperationComplete (s : State) : Outcome := match s.hist.scan with
  | some x => .next (s.scanned x).scanEnded.finish
  | none => .next s

end Sys2Proof.Machine
end

