-- ==== Sys2Proof/Machine/Reset.lean ====
section
/-!
DEFINITION. Power-on reset (R193): the straps sampled, every block's volatile state at its reset values, the
store as the loss of supply leaves it (R165), application 1 opened (R48), the start-up scan (R173).
-/

namespace Sys2Proof.Machine

/-! ### Straps -/

/-- The address base of the value on the address straps (R193). -/
def addressBase (v : BitVec 5) : Nat := 4 * clamp 1 30 v.toNat

/-- What is sampled from the straps (R193). -/
def Ident.sampled (pos : BitVec 2) (adr : BitVec 5) : Ident := ⟨pos, adr, pos.toFin, addressBase adr⟩

/-! ### The store after a loss of supply -/

/-- Whether an erase of a slot's cells is in progress: its own, the commit's or the scan's (R165). -/
def State.erasing (s : State) (k : Fin 16) : Bool :=
  (s.slot k).erase.isSome ||
    (match s.commitOp with
      | some (i, .erase _) => decide (i.slot = k)
      | some (_, .cell _ _) => false
      | some (_, .header) => false
      | none => false) ||
    match s.hist.scan with
    | some x => decide (x.slot = k ∧ x.phase = .erase)
    | none => false

/-- Cells of an interrupted erase: each blank or as it was, free (R165; log 10). -/
def partErased (draw : Nat) (v : Vec (Option NvCell) 384) : Vec (Option NvCell) 384 :=
  ⟨v.toList.mapIdx (fun j c => if Config.erasedSoFar draw j then none else c), by rw [List.length_mapIdx, v.len]⟩

/-- A slot when supply is lost: the header as the last completed operation left it, where an erase is still held
behind another write too (R166), or ERASING where its erase is in progress; no operation goes on (R165 to R167;
log 25). -/
def Slot.interrupted (x : Slot) : Slot :=
  let h := if x.erase.isSome then x.header else x.nv
  { x with header := h, nv := h, ops := [], erase := none }

/-- One slot when supply is lost (R165). -/
def State.lostSlot (s : State) (k : Fin 16) : Slot :=
  let x := (s.slot k).interrupted
  if s.erasing k then { x with cells := partErased (s.store.draws + k.val) x.cells } else x

/-- The store when supply is lost (R165); free values are drawn where an erase was interrupted. -/
def State.lostStore (s : State) : Store where
  slots := ⟨allSlots.map s.lostSlot, rfl⟩
  nvNext := s.store.nvNext
  draws := if allSlots.any s.erasing then s.store.draws + 16 else s.store.draws

/-! ### The reset -/

/-- Every block at its power-on values, the store apart (R17, R34, R53, R76, R92, R118, R120, R151, R174,
R186, R194). -/
def State.powered (s : State) (pos : BitVec 2) (adr : BitVec 5) : State where
  pending := s.pending
  clock := ⟨0, 0, s.clock.draws⟩
  ident := Ident.sampled pos adr
  link := Link.reset
  cls := Classifier.reset
  demand := Demand.reset
  slide := Slide.reset
  air := Air.reset
  blend := Blend.reset
  restrict := Restrict.reset
  banks := Banks.reset
  hist := Recorder.reset
  store := s.lostStore
  mgmt := Mgmt.reset
  work := Work.clear

/-- POWER_ON_RESET (R193): the MODE record of application 1 is the ring's first record (R48, R152), and the
scan starts (R173). -/
def execPowerOnReset (pos : BitVec 2) (adr : BitVec 5) (s : State) : Outcome :=
  .next ((((s.powered pos adr).openApplication).scanFrom allSlots).scanEnded).finish

end Sys2Proof.Machine
end

