-- ==== Sys2Proof/Machine/Dispatch.lean ====
section
/-!
DEFINITION. One arm per command: its meaning.
-/

namespace Sys2Proof.Machine

def exec (i : Instr) (s : State) : Host.Outcome State Fault Refusal :=
  match i with
  | .powerOnReset pos adr => Sys2Proof.Machine.execPowerOnReset pos adr s
  | .frameArrival port bytes => Sys2Proof.Machine.execFrameArrival port bytes s
  | .demand h service independent flags => Sys2Proof.Machine.execDemand h service independent flags s
  | .axleSpeed h samples => Sys2Proof.Machine.execAxleSpeed h samples s
  | .groundSpeed h speed quality => Sys2Proof.Machine.execGroundSpeed h speed quality s
  | .effortReport h axle effort status => Sys2Proof.Machine.execEffortReport h axle effort status s
  | .pressureReport h bogie pressure status => Sys2Proof.Machine.execPressureReport h bogie pressure status s
  | .transmissionComplete port => Sys2Proof.Machine.execTransmissionComplete port s
  | .silenceTimerExpiry port => Sys2Proof.Machine.execSilenceTimerExpiry port s
  | .stationFreshnessExpiry address => Sys2Proof.Machine.execStationFreshnessExpiry address s
  | .stationConcealExpiry address => Sys2Proof.Machine.execStationConcealExpiry address s
  | .axleFreshnessExpiry axle => Sys2Proof.Machine.execAxleFreshnessExpiry axle s
  | .axleConcealExpiry axle => Sys2Proof.Machine.execAxleConcealExpiry axle s
  | .releaseConfirmExpiry => Sys2Proof.Machine.execReleaseConfirmExpiry s
  | .referenceLostExpiry => Sys2Proof.Machine.execReferenceLostExpiry s
  | .allowanceTimerExpiry axle => Sys2Proof.Machine.execAllowanceTimerExpiry axle s
  | .dumpTimerExpiry => Sys2Proof.Machine.execDumpTimerExpiry s
  | .holdTimerExpiry => Sys2Proof.Machine.execHoldTimerExpiry s
  | .stepTimerExpiry => Sys2Proof.Machine.execStepTimerExpiry s
  | .mismatchTimerExpiry => Sys2Proof.Machine.execMismatchTimerExpiry s
  | .handoverTimerExpiry => Sys2Proof.Machine.execHandoverTimerExpiry s
  | .refreshTimerExpiry output => Sys2Proof.Machine.execRefreshTimerExpiry output s
  | .claimHeaderWriteComplete slot => Sys2Proof.Machine.execClaimHeaderWriteComplete slot s
  | .commitEraseComplete => Sys2Proof.Machine.execCommitEraseComplete s
  | .recordCellWriteComplete => Sys2Proof.Machine.execRecordCellWriteComplete s
  | .commitHeaderWriteComplete => Sys2Proof.Machine.execCommitHeaderWriteComplete s
  | .protectHeaderWriteComplete slot => Sys2Proof.Machine.execProtectHeaderWriteComplete slot s
  | .eraseComplete slot => Sys2Proof.Machine.execEraseComplete slot s
  | .scanOperationComplete => Sys2Proof.Machine.execScanOperationComplete s
  | .identify h => Sys2Proof.Machine.execIdentify h s
  | .readStatus h page => Sys2Proof.Machine.execReadStatus h page s
  | .setMode h target => Sys2Proof.Machine.execSetMode h target s
  | .setNotice h address enables => Sys2Proof.Machine.execSetNotice h address enables s
  | .restart h => Sys2Proof.Machine.execRestart h s
  | .setPort h port threshold clear => Sys2Proof.Machine.execSetPort h port threshold clear s
  | .readPort h port => Sys2Proof.Machine.execReadPort h port s
  | .setStation h address role side count b0 b1 b2 b3 fresh conceal => Sys2Proof.Machine.execSetStation h address role side count b0 b1 b2 b3 fresh conceal s
  | .clearStation h address => Sys2Proof.Machine.execClearStation h address s
  | .readStation h address => Sys2Proof.Machine.execReadStation h address s
  | .setMatch h entry enable kind source offset value mask => Sys2Proof.Machine.execSetMatch h entry enable kind source offset value mask s
  | .readAxle h => Sys2Proof.Machine.execReadAxle h s
  | .restoreAxle h => Sys2Proof.Machine.execRestoreAxle h s
  | .readBogie h part => Sys2Proof.Machine.execReadBogie h part s
  | .setRestriction h entry select enable invert priority path action trigger edge force => Sys2Proof.Machine.execSetRestriction h entry select enable invert priority path action trigger edge force s
  | .readRestrictions h start => Sys2Proof.Machine.execReadRestrictions h start s
  | .ackRestrictions h mask => Sys2Proof.Machine.execAckRestrictions h mask s
  | .setLimiter h path value => Sys2Proof.Machine.execSetLimiter h path value s
  | .loadSegment h selector contents => Sys2Proof.Machine.execLoadSegment h selector contents s
  | .adopt h => Sys2Proof.Machine.execAdopt h s
  | .discardStaged h => Sys2Proof.Machine.execDiscardStaged h s
  | .setRecorder h pre post policy sliding => Sys2Proof.Machine.execSetRecorder h pre post policy sliding s
  | .readIncidents h start => Sys2Proof.Machine.execReadIncidents h start s
  | .setCursor h slot index => Sys2Proof.Machine.execSetCursor h slot index s
  | .readRecords h => Sys2Proof.Machine.execReadRecords h s
  | .protect h slot => Sys2Proof.Machine.execProtect h slot s
  | .unprotect h slot => Sys2Proof.Machine.execUnprotect h slot s
  | .eraseIncident h slot => Sys2Proof.Machine.execEraseIncident h slot s
  | .trigger h subject mark => Sys2Proof.Machine.execTrigger h subject mark s
  | .unknownRequestCode h code params => Sys2Proof.Machine.execUnknownRequestCode h code params s
  | .eraseHeaderWriteComplete slot => Sys2Proof.Machine.execEraseHeaderWriteComplete slot s

end Sys2Proof.Machine
end

