-- ==== Sys2Proof/Machine/Step.lean ====
section
/-!
DEFINITION. One step: the command at the front of the queue, or, when none waits, the block's clock (log 2).
-/

namespace Sys2Proof.Machine

/-- One step of the block. -/
def step (s : State) : Host.Outcome State Fault Refusal := match s.pending with
  | c :: rest => exec c (s.withPending rest)
  | [] => .next s.tick

/-- The command a table word spells, put at the front of the queue; no row of the table gives bits, so no
word spells a command and the state stays as it is. -/
def State.withFetchWord (s : State) (nbits w : Nat) : State := match decodeTableWord nbits w with
  | some c => s.withPending (c :: s.pending)
  | none => s

end Sys2Proof.Machine
end

