-- ==== Sys2Proof/Safety.lean ====
section
/-!
DEFINITION. The terms in which claims about the device are stated: what a port holds for the link, when a request
is served and what its owner finds.
-/

namespace Sys2Proof.Machine

/-! ### Frames on a port -/

/-- A port holds a frame the device originated: queued in FORWARD, or being transmitted (R6, R10, R11). -/
def Port.carries (x : Port) (o : Orig) : Prop :=
  Queued.originated o ∈ x.forward ∨
    ∃ t, x.tx = some t ∧ t.frame.kind = o.kind ∧ t.frame.dest = o.dest ∧ t.frame.payload = o.payload

/-- A port holds the command of a target: queued in COMMAND, or being transmitted (R8, R10, R11). -/
def Port.commands (x : Port) (target : Fin 4) (o : Orig) : Prop :=
  ⟨target, o⟩ ∈ x.command ∨
    ∃ t, x.tx = some t ∧ t.frame.kind = o.kind ∧ t.frame.dest = o.dest ∧ t.frame.payload = o.payload

/-- A port holds a frame it forwards: queued in FORWARD, or being transmitted, byte for byte (R2, R5). -/
def Port.passes (x : Port) (f : Frame) : Prop :=
  Queued.forwarded f ∈ x.forward ∨ ∃ t, x.tx = some t ∧ t.frame = f

/-! ### Requests -/

/-- A request that the device serves (R175) with a scope kind that is listed (R176). -/
structure State.Served (s : State) (h : ReqHead) : Prop where
  source : s.badSource h.src = false
  serves : s.serves h = true
  scope : scopeListed h = true

/-- What the owner of a request finds when it takes it: the state after the frame's arrival (R5, R13, R32), with
the open load cancelled unless the request continues it (R144, step 1 of R177). -/
def State.finds (s : State) (h : ReqHead) (code : Byte) (params : List Byte)
    (continues : State → Bool := neverContinues) : State :=
  (s.arrived h.port (requestFrame h code params)).taking continues

/-- The reply to a request stands in the queue of the port it came on, or is on the wire (R177). -/
def State.replies (t : State) (h : ReqHead) (code : Byte) (status : Status) (data : List Byte) : Prop :=
  (t.port h.port).carries (replyFrame h code ⟨status, data⟩)

/-- The port that a request comes on has a place for the reply (R6). -/
def State.Room (s : State) (h : ReqHead) : Prop := (s.port h.port).forward.length ≤ 15

/-- The port that a request comes on has no place for the reply: 16 frames are queued and the transmitter is busy
(R6). -/
def State.Full (s : State) (h : ReqHead) : Prop :=
  16 ≤ (s.port h.port).forward.length ∧ (s.port h.port).tx ≠ none

/-- How a request is answered from one state to another (R6, R177): its reply stands in the queue of the port it came
on, or is on the wire, where that queue has a place for it; where it has none, no reply is sent, the queue stays as it is,
and the loss is counted as a FORWARD drop of that port. -/
def State.answers (s t : State) (h : ReqHead) (code : Byte) (status : Status) (data : List Byte) : Prop :=
  (s.Room h → t.replies h code status data) ∧
  (s.Full h → (t.port h.port).forward = (s.port h.port).forward ∧
    (t.port h.port).forwardDrops = min ((s.port h.port).forwardDrops + 1) 65535)

/-- The requests whose parameters have one length, by code, and that length in bytes (R191). -/
def paramLengths : List (Byte × Nat) :=
  [(0x01, 0), (0x02, 1), (0x03, 1), (0x04, 2), (0x05, 0), (0x10, 3), (0x11, 1), (0x18, 12), (0x19, 1), (0x1A, 1),
    (0x1B, 7), (0x20, 0), (0x21, 0), (0x22, 1), (0x28, 11), (0x29, 1), (0x2A, 4), (0x2B, 2), (0x31, 0), (0x32, 0),
    (0x38, 6), (0x39, 1), (0x3A, 3), (0x3B, 0), (0x3C, 1), (0x3D, 1), (0x3E, 1)]

/-- Parameters of a length that the request's layout does not give (step 2 of R177, R191): a LOAD_SEGMENT has at least
its selector, a TRIGGER its subject and at most 12 bytes of mark data. -/
def WrongLength (code : Byte) (params : List Byte) : Prop :=
  (∃ n, (code, n) ∈ paramLengths ∧ params.length ≠ n) ∨ (code = 0x30 ∧ params = []) ∨
    (code = 0x3F ∧ (params = [] ∨ 13 < params.length))

/-! ### What a command leaves as it was -/

/-- The blocks of the device's state that only a block's own rules write. What every event's consequences may
write is not among them: the transmit queues, the evaluated outputs, the conditions, pending states, latches and
governing indices, the ring and the current incident, the pending notices. Where such a consequence also touches a
block (an evaluation returns the sequencer to NORMAL, a trigger's claim takes a slot, a full queue counts a drop),
the block's reading says how far. -/
inductive Block where
  /-- The queue of commands. -/
  | queue
  /-- The time base. -/
  | clock
  /-- The straps and the address (R193). -/
  | ident
  /-- The thresholds of the ports (R7). -/
  | thresholds
  /-- The counts of the ports, FORWARD drops apart (R12, R24). -/
  | counts
  /-- The FORWARD drops of the ports, which a frame refused a place raises in any event (R6). -/
  | drops
  /-- The last passing arrivals and the silence of the ports (R13). -/
  | silence
  /-- The station table (R19). -/
  | stations
  /-- The axle samples (R29). -/
  | samples
  /-- The radar doubtful count (R26). -/
  | radarDoubtful
  /-- The match entries (R32). -/
  | matchers
  /-- Levels, hold status and emergency latch (R35 to R41). -/
  | demand
  /-- Application and mode (R44 to R52). -/
  | application
  /-- Reference speed and slide records (R54 to R70). -/
  | slide
  /-- The air sequencer: its state, EXHAUSTED, levels, dump time and timers; an evaluation may return it to NORMAL,
  which ends its timers and adds a dump to the time used (R79 to R84). -/
  | sequencer
  /-- The last PRESSURE_REPORT, CYLINDER_MISMATCH and its timer, which a change of p_out cancels (R88 to R90). -/
  | pressure
  /-- The handover timer, which an evaluation may start or end (R106 to R108). -/
  | handover
  /-- The last EFFORT_REPORTs (R96). -/
  | efforts
  /-- The settings of the restriction entries (R119). -/
  | settings
  /-- The limiters (R126). -/
  | limiters
  /-- The active bank and the adoption count (R136, R147). -/
  | active
  /-- The staged tables, their load states and the open load, the pending adoption (R141, R146). -/
  | staged
  /-- The recorder's configuration and its scan (R172, R173). -/
  | recorder
  /-- The refused and dropped counts, which a trigger raises (R157, R163). -/
  | refusals
  /-- The readout cursor, which the claim of its slot ends (R158, R168). -/
  | cursor
  /-- The headers in force of the slots and their header writes in progress: a claim makes a header WRITING and adds
  its write, and the commit adds its own (R158, R160, R166). -/
  | headers
  /-- Cells, NV headers and erases of the store, and the next-incident-number in NV (R154, R167). -/
  | store
  /-- The responder's settings and its malformed-request count (R175, R183). -/
  | mgmt
deriving DecidableEq, Repr

/-- The sequencer is as it was, or an evaluation has returned it to NORMAL (R77, R84). -/
structure Air.Keeps (a b : Air) : Prop where
  exhausted : b.exhausted = a.exhausted
  dumpStart : b.dumpStart = a.dumpStart
  held : b.held = a.held
  reapply : b.reapply = a.reapply
  state : b.state = a.state ∨ b.state = .normal
  used : b.used = a.used ∨ (a.state = .dump ∧ b.state = .normal)
  dumpTimer : b.dumpTimer = a.dumpTimer ∨ b.dumpTimer = none
  holdTimer : b.holdTimer = a.holdTimer ∨ b.holdTimer = none
  stepTimer : b.stepTimer = a.stepTimer ∨ b.stepTimer = none

/-- A slot's header in force and header writes are as they were, but for a claim of the slot and the commit's write
(R158, R160). -/
structure Slot.Keeps (x y : Slot) : Prop where
  header : y.header = x.header ∨ y.header.state = .writing
  ops : x.ops <+: y.ops

/-- A block is the same in two states, as far as its docstring says. -/
def Block.same (s t : State) : Block → Prop
  | .queue => t.pending = s.pending
  | .clock => t.clock = s.clock
  | .ident => t.ident = s.ident
  | .thresholds => ∀ p, (t.port p).threshold = (s.port p).threshold
  | .counts => ∀ p, (t.port p).crcRejects = (s.port p).crcRejects ∧ (t.port p).lengthRejects = (s.port p).lengthRejects ∧
      (t.port p).framesSent = (s.port p).framesSent ∧ (t.port p).unknownSources = (s.port p).unknownSources
  | .drops => ∀ p, min (s.port p).forwardDrops 65535 ≤ (t.port p).forwardDrops
  | .silence => ∀ p, (t.port p).lastArrival = (s.port p).lastArrival ∧ (t.port p).silent = (s.port p).silent ∧
      (t.port p).silenceTimer = (s.port p).silenceTimer
  | .stations => t.cls.stations = s.cls.stations
  | .samples => t.cls.samples = s.cls.samples
  | .radarDoubtful => t.cls.radarDoubtful = s.cls.radarDoubtful
  | .matchers => t.cls.matchers = s.cls.matchers
  | .demand => t.demand.lLast = s.demand.lLast ∧ t.demand.iLast = s.demand.iLast ∧ t.demand.hold = s.demand.hold ∧
      t.demand.emergency = s.demand.emergency
  | .application => t.demand.app = s.demand.app ∧ t.demand.appNumber = s.demand.appNumber ∧
      t.demand.releaseTimer = s.demand.releaseTimer ∧ t.demand.mode = s.demand.mode
  | .slide => t.slide = s.slide
  | .sequencer => s.air.Keeps t.air
  | .pressure => t.air.measured = s.air.measured ∧ t.air.status = s.air.status ∧ t.air.mismatch = s.air.mismatch ∧
      (t.air.mismatchTimer = s.air.mismatchTimer ∨ t.air.mismatchTimer = none)
  | .handover => t.blend.handover = s.blend.handover ∨ t.blend.handover = none ∨
      ∃ b, t.banks.active = some b ∧ t.blend.handover = some ⟨s.clock.time, b.supervision.tLead⟩
  | .efforts => ∀ i, (t.out i).achieved = (s.out i).achieved ∧ (t.out i).status = (s.out i).status
  | .limiters => t.restrict.limElectric = s.restrict.limElectric ∧ t.restrict.limAir = s.restrict.limAir
  | .settings => ∀ i, (t.entry i).enable = (s.entry i).enable ∧ (t.entry i).invert = (s.entry i).invert ∧
      (t.entry i).priority = (s.entry i).priority ∧ (t.entry i).path = (s.entry i).path ∧
      (t.entry i).action = (s.entry i).action ∧ (t.entry i).trigger = (s.entry i).trigger ∧
      (t.entry i).edge = (s.entry i).edge ∧ (t.entry i).force = (s.entry i).force
  | .active => t.banks.active = s.banks.active ∧ t.banks.adoptions = s.banks.adoptions
  | .staged => t.banks.staged = s.banks.staged ∧ t.banks.states = s.banks.states ∧
      t.banks.openLoad = s.banks.openLoad ∧ t.banks.pendingAdoption = s.banks.pendingAdoption
  | .recorder => t.hist.pre = s.hist.pre ∧ t.hist.post = s.hist.post ∧ t.hist.policy = s.hist.policy ∧
      t.hist.slidingTrigger = s.hist.slidingTrigger ∧ t.hist.scan = s.hist.scan
  | .refusals => min s.hist.refused 65535 ≤ t.hist.refused ∧ min s.hist.dropped 65535 ≤ t.hist.dropped
  | .cursor => t.hist.cursor = s.hist.cursor ∨
      (t.hist.cursor = none ∧ ∃ c, s.hist.cursor = some c ∧ (t.slot c.slot).header.state = .writing)
  | .headers => ∀ k, (s.slot k).Keeps (t.slot k)
  | .store => t.store.nvNext = s.store.nvNext ∧
      ∀ k, (t.slot k).cells = (s.slot k).cells ∧ (t.slot k).nv = (s.slot k).nv ∧ (t.slot k).erase = (s.slot k).erase
  | .mgmt => t.mgmt.malformed = s.mgmt.malformed ∧ t.mgmt.noticeAddress = s.mgmt.noticeAddress ∧
      t.mgmt.noticeSide = s.mgmt.noticeSide ∧ t.mgmt.enables = s.mgmt.enables

/-- A command leaves every block but those named as it was: the frame of a statement. -/
def State.leaves (s t : State) (but : List Block) : Prop := ∀ b, b ∉ but → b.same s t

/-- What the arrival of a frame itself writes of these blocks: nothing but its port's arrival time and silence
(R13), and, for a request that is served and does not continue it, the open load (R144); what the latter leaves of
the staged bank a statement says by the banks themselves. -/
def requestBlocks : List Block := [.silence, .staged]

/-! ### Commands as frames -/

/-- The head, code and parameter bytes of a request command (R190, R191); none of another command. -/
def requestOf : Instr → Option (ReqHead × Byte × List Byte)
  | .identify h => some (h, 0x01, [])
  | .readStatus h page => some (h, 0x02, [page])
  | .setMode h target => some (h, 0x03, [target])
  | .setNotice h address enables => some (h, 0x04, [address, enables])
  | .restart h => some (h, 0x05, [])
  | .setPort h port threshold clear => some (h, 0x10, [port, threshold, clear])
  | .readPort h port => some (h, 0x11, [port])
  | .setStation h address role side count b0 b1 b2 b3 fresh conceal =>
    some (h, 0x18, [address, role, side, count, b0, b1, b2, b3] ++ word16 fresh ++ word16 conceal)
  | .clearStation h address => some (h, 0x19, [address])
  | .readStation h address => some (h, 0x1A, [address])
  | .setMatch h entry enable kind source offset value mask =>
    some (h, 0x1B, [entry, enable, kind, source, offset, value, mask])
  | .readAxle h => some (h, 0x20, [])
  | .restoreAxle h => some (h, 0x21, [])
  | .readBogie h part => some (h, 0x22, [part])
  | .setRestriction h entry select enable invert priority path action trigger edge force =>
    some (h, 0x28, [entry, select, enable, invert, priority, path] ++ word16 action ++ [trigger, edge, force])
  | .readRestrictions h start => some (h, 0x29, [start])
  | .ackRestrictions h mask => some (h, 0x2A, be32 mask)
  | .setLimiter h path value => some (h, 0x2B, [path, value])
  | .loadSegment h selector contents => some (h, 0x30, selector :: contents)
  | .adopt h => some (h, 0x31, [])
  | .discardStaged h => some (h, 0x32, [])
  | .setRecorder h pre post policy sliding => some (h, 0x38, word16 pre ++ word16 post ++ [policy, sliding])
  | .readIncidents h start => some (h, 0x39, [start])
  | .setCursor h slot index => some (h, 0x3A, [slot] ++ word16 index)
  | .readRecords h => some (h, 0x3B, [])
  | .protect h slot => some (h, 0x3C, [slot])
  | .unprotect h slot => some (h, 0x3D, [slot])
  | .eraseIncident h slot => some (h, 0x3E, [slot])
  | .trigger h subject mark => some (h, 0x3F, subject :: mark)
  | .unknownRequestCode h code params => some (h, code, params)
  | .powerOnReset _ _ => none
  | .frameArrival _ _ => none
  | .demand _ _ _ _ => none
  | .axleSpeed _ _ => none
  | .groundSpeed _ _ _ => none
  | .effortReport _ _ _ _ => none
  | .pressureReport _ _ _ _ => none
  | .transmissionComplete _ => none
  | .silenceTimerExpiry _ => none
  | .stationFreshnessExpiry _ => none
  | .stationConcealExpiry _ => none
  | .axleFreshnessExpiry _ => none
  | .axleConcealExpiry _ => none
  | .releaseConfirmExpiry => none
  | .referenceLostExpiry => none
  | .allowanceTimerExpiry _ => none
  | .dumpTimerExpiry => none
  | .holdTimerExpiry => none
  | .stepTimerExpiry => none
  | .mismatchTimerExpiry => none
  | .handoverTimerExpiry => none
  | .refreshTimerExpiry _ => none
  | .claimHeaderWriteComplete _ => none
  | .commitEraseComplete => none
  | .recordCellWriteComplete => none
  | .commitHeaderWriteComplete => none
  | .protectHeaderWriteComplete _ => none
  | .eraseComplete _ => none
  | .scanOperationComplete => none
  | .eraseHeaderWriteComplete _ => none

/-- The port and frame a command stands for: the five policed kinds and the requests (R23, R190); none of a
command that is no frame. -/
def frameOf (c : Instr) : Option (PortId × Frame) := match c with
  | .demand h service independent flags => some (h.port, demandFrame h service independent flags)
  | .axleSpeed h samples => some (h.port, speedFrame h samples)
  | .groundSpeed h speed quality => some (h.port, groundFrame h speed quality)
  | .effortReport h axle effort status => some (h.port, effortReportFrame h axle effort status)
  | .pressureReport h bogie pressure status => some (h.port, pressureReportFrame h bogie pressure status)
  | other => (requestOf other).map (fun x => (x.1.port, requestFrame x.1 x.2.1 x.2.2))

/-- The head of a policed frame and the role of its source (R23); none of another command. -/
def policed (c : Instr) : Option (FrameHead × Role) := match c with
  | .demand h _ _ _ => some (h, .cab)
  | .axleSpeed h _ => some (h, .axleUnit)
  | .groundSpeed h _ _ => some (h, .radar)
  | .effortReport h _ _ _ => some (h, .converter)
  | .pressureReport h _ _ _ => some (h, .valve)
  | _ => none

/-- The payload of a policed frame has its form, and its numbers are bound to the entry of its source (steps 4 and 5
of R24). -/
def carriesWell (c : Instr) (e : Station) : Bool := match c with
  | .demand _ _ _ flags => decide (flags.toNat < 4)
  | .axleSpeed _ xs => decide (1 ≤ xs.length ∧ xs.length ≤ 4 ∧ (∀ x ∈ xs, x.axle.toNat < 12 ∧ x.quality.toNat < 2 ∧
      x.axle.toNat ∈ e.bound) ∧ (xs.map (fun x => x.axle)).Nodup)
  | .groundSpeed _ _ quality => decide (quality.toNat < 2)
  | .effortReport _ axle _ status => decide (axle.toNat < 12 ∧ status.toNat < 3 ∧ axle.toNat ∈ e.bound)
  | .pressureReport _ bogie _ status => decide (bogie.toNat < 4 ∧ status.toNat < 2 ∧ bogie.toNat ∈ e.bound)
  | _ => true

/-- A policed frame whose payload has another length than its kind's layout gives (step 4 of R24, R190). -/
def Frame.Misformed (f : Frame) : Prop :=
  (f.kind = kindDemand ∧ f.payload.length ≠ 5) ∨ (f.kind = kindAxleSpeed ∧ f.payload.length ∉ [4, 8, 12, 16]) ∨
    (f.kind = kindGroundSpeed ∧ f.payload.length ≠ 3) ∨ (f.kind = kindEffortReport ∧ f.payload.length ≠ 4) ∨
    (f.kind = kindPressureReport ∧ f.payload.length ≠ 4)

/-- A policed frame is accepted from an entry (R24): the entry of its source has its kind's role, it came on the
entry's side, its payload passes, and its SEQ is newer. -/
structure State.Accepts (s : State) (c : Instr) (h : FrameHead) (role : Role) (e : Station) : Prop where
  kind : policed c = some (h, role)
  entry : s.station h.src = some e
  role : e.role = role
  side : e.side = h.port
  payload : carriesWell c e = true
  newer : newerSeq h.seq e.lastSeq = true

/-- An entry after an accepted frame: fresh, its SEQ the last, a gap counted, its timers running (R25 to R27). -/
def Station.afterFrame (x : Station) (seq : Byte) (now : Time) : Station :=
  { x with
    lastSeq := some seq, gapCount := if gapSeq seq x.lastSeq then min (x.gapCount + 1) 65535 else x.gapCount
    lastAccept := now, state := .fresh, freshTimer := some ⟨now, x.freshLimit⟩
    concealTimer := if x.concealLimit = 0 then none else some ⟨now, x.freshLimit + x.concealLimit⟩ }

/-- The station table with the entry of an address changed. -/
def State.stationsWith (s : State) (a : Byte) (f : Station → Station) : List Station :=
  s.cls.stations.map (fun x => if x.address = a then f x else x)

/-- The reference speed after a speed arrival that leaves a state with the samples and the radar speed it set (R54 to
R57): with no candidate nothing moves; a candidate at or above Vref is taken whole; below it, Vref falls no faster
than the fall law allows. -/
def State.Referred (u t : State) : Prop := match largest u.candidates with
  | none => t.slide.vref = u.slide.vref ∧ t.slide.acc = u.slide.acc ∧ t.slide.lastUpdate = u.slide.lastUpdate ∧
      t.slide.refLost = u.slide.refLost ∧ t.slide.refTimer = u.slide.refTimer
  | some c =>
    let a := u.slide.acc + u.aFall * min (u.clock.time - u.slide.lastUpdate).toNat 65535
    (u.slide.vref ≤ c → t.slide.vref = c ∧ t.slide.acc = 0) ∧
    (c < u.slide.vref → t.slide.vref = max c (u.slide.vref - a / 1000) ∧ t.slide.acc = a % 1000) ∧
    t.slide.lastUpdate = u.clock.time ∧ t.slide.refLost = false ∧
    t.slide.refTimer = u.banks.active.map (fun b => ⟨u.clock.time, b.supervision.tRefLost⟩)

/-- The consequences of an event outside its own make no evaluation due: none is due before it, the governing indices
are those of R126, and the entries whose conditions settling can change have the path REPORT (R120, R127). -/
structure State.Steady (s : State) : Prop where
  work : s.work = Work.clear
  electric : s.restrict.computeGov .electric = s.restrict.govElectric
  air : s.restrict.computeGov .air = s.restrict.govAir
  exhausted : (s.entry 13).path = .report
  congested : (s.entry 16).path = .report
  store : (s.entry 18).path = .report

/-! ### Records, triggers and edges -/

/-- The records written between two states begin with those of a list (R152): the ring holds the last 512 of those
that stood and those written. -/
def State.writes (s t : State) (l : List Record) : Prop := ∃ more,
  t.hist.ring = (s.hist.ring ++ l ++ more).drop (s.hist.ring.length + (l ++ more).length - 512) ∧
  t.hist.nextSeq = s.hist.nextSeq + BitVec.ofNat 32 (l ++ more).length

/-- The history ring holds at most 512 records of 24 bytes, whose sequences run on to the next (R152, R153). -/
structure State.RingLaw (s : State) : Prop where
  size : s.hist.ring.length ≤ 512
  data : ∀ r ∈ s.hist.ring, r.data.length = 14
  runs : ∀ j r, s.hist.ring[j]? = some r → r.seq = s.hist.nextSeq - BitVec.ofNat 32 (s.hist.ring.length - j)

/-- Records stand, in this order, among those written between two states, each of the time of the event and with its
contents filled up with 0 (R152, R153). A row gives a record's kind, subject and contents. -/
def State.logs (s t : State) (rows : List (RecordKind × Byte × List Byte)) : Prop := ∃ l, s.writes t l ∧
  (∀ r ∈ l, r.time = s.clock.time) ∧
  (rows.map (fun x => (x.1, x.2.1, padTo 14 x.2.2))).Sublist (l.map (fun r => (r.kind, r.subject, r.data)))

/-- A trigger of a sequence sent within an event has reached the recorder (R156): it is in the list of the incident that
is current after the event, or that list has its four and counts it as merged; it is in the queue; or it is counted, as
dropped from a full queue or as refused for want of a slot (R157, R159, R163). -/
def State.Sends (s t : State) (source : TriggerSource) (subject : Byte) (q : BitVec 32) : Prop :=
  (∃ j, t.hist.current = some j ∧ (⟨source, subject, q⟩ ∈ j.triggers ∨
    (4 ≤ j.triggers.length ∧ 1 ≤ j.merged ∧ ∀ i, s.hist.current = some i → min (i.merged + 1) 255 ≤ j.merged))) ∨
  (∃ g ∈ t.hist.queue, g.source = source ∧ g.subject = subject ∧ g.t = q ∧ g.time = s.clock.time) ∨
  (4 ≤ t.hist.queue.length ∧ min (s.hist.dropped + 1) 65535 ≤ t.hist.dropped) ∨
  min (s.hist.refused + 1) 65535 ≤ t.hist.refused

/-- A record written within an event, and the trigger sent before it with its sequence (R156). -/
def State.logsTriggered (s t : State) (row : RecordKind × Byte × List Byte) (source : TriggerSource) (subject : Byte) :
    Prop := ∃ l, s.writes t l ∧ ∃ r ∈ l, r.time = s.clock.time ∧ r.kind = row.1 ∧ r.subject = row.2.1 ∧
  r.data = padTo 14 row.2.2 ∧ s.Sends t source subject r.seq

/-- A slot that an incident may be opened on (R157): a FREE one; where there is none, under OVERWRITE_OLDEST, one that
holds an incident and is not protected. -/
def State.Claimable (s : State) (k : Fin 16) : Prop :=
  (s.slot k).header.state = .free ∨ ((∀ j, (s.slot j).header.state ≠ .free) ∧ s.hist.policy = .overwriteOldest ∧
    ((s.slot k).header.state = .complete ∨ (s.slot k).header.state = .incomplete) ∧
    (s.slot k).header.isProtected = false)

/-- The incident that a trigger opens, the first thing of an event, and what of it stands at the event's end (R155, R157 to
R159). Its slot is the FREE one of the lowest number, or the one of the lowest incident number that may be overwritten; its
number is the next that no slot holds; its windows are those in force. Its capture buffer begins with the last P records of
the ring, and the Q records from T on follow, unless RESTART cuts the window (R162). The slot's header is WRITING from now
on, its write is the slot's last operation, and the readout cursor leaves the slot. P = 0 leaves no record missing (log 22);
the opening trigger's index is the place its record will take (log 21). -/
structure State.Opens (s t : State) (source : TriggerSource) (subject : Byte) (i : Incident) : Prop where
  current : t.hist.current = some i
  first : [⟨source, subject, s.hist.nextSeq⟩] <+: i.triggers
  slot : s.Claimable i.slot
  lowest : (s.slot i.slot).header.state = .free → ∀ j, j < i.slot → (s.slot j).header.state ≠ .free
  oldest : (s.slot i.slot).header.state ≠ .free → ∀ j, s.Claimable j →
    (s.slot i.slot).header.number ≤ (s.slot j).header.number
  number : ∃ n ≤ 16, i.number = nextNumber^[n] s.hist.nextIncident ∧
    ∀ m < n, ∃ k, (s.slot k).header.state ≠ .free ∧ (s.slot k).header.number = nextNumber^[m] s.hist.nextIncident
  unheld : ∀ k, (s.slot k).header.state ≠ .free → (s.slot k).header.number ≠ i.number
  next : t.hist.nextIncident = if i.number + 1 = 0 then 1 else i.number + 1
  settings : i.t = s.hist.nextSeq ∧ i.pre = s.hist.pre ∧ i.post = s.hist.post ∧ i.appNumber = s.demand.appNumber ∧
    i.openTime = s.clock.time ∧ i.claimDone = false ∧ i.op = none
  reused : i.reused = true ↔ (s.slot i.slot).header.state ≠ .free
  capture : t.hist.capture ≠ .idle ∧ (s.hist.post = 0 → t.hist.capture = .committing)
  window : s.RingLaw → s.hist.pre + s.hist.post ≤ 512 →
    let w := s.hist.ring.drop (s.hist.ring.length - s.hist.pre)
    w <+: i.buffer ∧ i.firstSeq = s.hist.nextSeq - BitVec.ofNat 32 w.length ∧
    (i.preTruncated = true ↔ s.hist.ring.length < s.hist.pre) ∧
    (i.postCut = false → ∃ l, t.hist.ring = (s.hist.ring ++ l).drop (s.hist.ring.length + l.length - 512) ∧
      t.hist.nextSeq = s.hist.nextSeq + BitVec.ofNat 32 l.length ∧ i.buffer = w ++ l.take s.hist.post) ∧
    (t.slot i.slot).header = { (t.slot i.slot).header with
      triggers := [⟨source, subject, if s.hist.post = 0 then none else some w.length⟩] }
  claim : (t.slot i.slot).header = { (t.slot i.slot).header with
    number := i.number, state := .writing, isProtected := false, merged := 0, dropped := 0, appNumber := i.appNumber
    openTime := i.openTime, count := 0, firstSeq := i.firstSeq, preTruncated := i.preTruncated, postCut := false }
  write : ∃ n, 1 ≤ n ∧ n ≤ 400 ∧ (s.slot i.slot).ops ++ [⟨.claim, (t.slot i.slot).header, n⟩] <+: (t.slot i.slot).ops
  cursor : ∀ c, t.hist.cursor = some c → c.slot ≠ i.slot

/-- A trigger sent with the next record's sequence as the first of an event: in IDLE it opens an incident on a slot that
can be claimed, and is counted as refused where none can; in POST it is the next of the current incident's list while that
has room, and counted as merged when it has none; in COMMITTING, and during the scan, it joins the queue, or is counted as
dropped where four wait (R156 to R159, R163). -/
structure State.Triggers (s t : State) (source : TriggerSource) (subject : Byte) : Prop where
  opens : s.hist.scan = none → s.hist.capture = .idle → (∃ k, s.Claimable k) → ∃ i, s.Opens t source subject i
  refuses : s.hist.scan = none → s.hist.capture = .idle → (∀ k, ¬s.Claimable k) →
    min (s.hist.refused + 1) 65535 ≤ t.hist.refused
  joins : ∀ i, s.hist.scan = none → s.hist.capture = .post → s.hist.current = some i → i.triggers.length < 4 →
    ∃ j, t.hist.current = some j ∧ i.triggers ++ [⟨source, subject, s.hist.nextSeq⟩] <+: j.triggers
  merges : ∀ i, s.hist.scan = none → s.hist.capture = .post → s.hist.current = some i → 4 ≤ i.triggers.length →
    ∃ j, t.hist.current = some j ∧ j.triggers = i.triggers ∧ min (i.merged + 1) 255 ≤ j.merged
  waits : s.hist.scan ≠ none ∨ s.hist.capture = .committing → s.hist.queue.length < 4 →
    s.hist.queue ++ [⟨source, subject, s.clock.time, s.hist.nextSeq⟩] <+: t.hist.queue
  drops : s.hist.scan ≠ none ∨ s.hist.capture = .committing → 4 ≤ s.hist.queue.length →
    t.hist.queue = s.hist.queue ∧ min (s.hist.dropped + 1) 65535 ≤ t.hist.dropped

/-! ### Notices -/

/-- The NOTICE frame of a notice (R186). -/
def State.noticeOrig (s : State) (x : Notice) : Orig :=
  ⟨kindNotice, s.mgmt.noticeAddress, [x.kind.code, x.subject] ++ be32 x.value ++ be32 x.time⟩

/-- A notice placed within an event waits in the set, or its frame stands in the queue of the notice side or is on the
wire there (R184 to R186). -/
def State.Notifies (t : State) (x : Notice) : Prop :=
  x ∈ t.mgmt.notices ∨ (t.port t.mgmt.noticeSide).carries (t.noticeOrig x)

/-- A notice that an event places first is offered in it (R185): where none waits before it and the queue of the notice
side is below its threshold and holds at most 14 frames (R6), its NOTICE frame stands in that queue or is on the wire. -/
def State.offersFirst (s t : State) (x : Notice) : Prop :=
  s.work = Work.clear → s.mgmt.notices = [] →
  (s.port s.mgmt.noticeSide).forward.length < (s.port s.mgmt.noticeSide).threshold →
  (s.port s.mgmt.noticeSide).forward.length ≤ 14 → (t.port s.mgmt.noticeSide).carries (s.noticeOrig x)

/-! ### Edges -/

/-- Whether an edge to a pending state is one that an entry's notice edge names (R124). -/
def NoticeEdge.names (x : NoticeEdge) (raised : Bool) : Prop :=
  x = .both ∨ (x = .raise ∧ raised = true) ∨ (x = .clear ∧ raised = false)

/-- A change of an entry's pending state is taken as the first thing of an event (R122 to R124), with the settings
of x: of an enabled entry it sends the entry's trigger, writes the PENDING record, and latches the entry where its
notice edge names the edge, with a notice that is sent or waits, and waits while the notice side takes none; of a disabled
one it does nothing. -/
structure State.TakesEdge (s t : State) (k : Fin 20) (x : Entry) : Prop where
  still : x.enable = false ∨ (t.entry k).pending = (s.entry k).pending → (t.entry k).latched = (s.entry k).latched
  latched : x.enable = true → (t.entry k).pending ≠ (s.entry k).pending →
    ((t.entry k).latched = true ↔ (s.entry k).latched = true ∨ x.edge.names (t.entry k).pending)
  record : x.enable = true → (t.entry k).pending ≠ (s.entry k).pending → s.writes t
    [⟨s.clock.time, s.hist.nextSeq, .restrict, b8 (k.val + 1),
      [0, b8 (packBits [(t.entry k).pending, (t.entry k).condition, x.invert, x.force, (t.entry k).latched,
        (t.entry k).pending && x.trigger]), x.path.code, b8 x.priority, 0, 0, 0, 0, 0, 0, 0, 0, 0, 0]⟩]
  trigger : x.enable = true → (t.entry k).pending ≠ (s.entry k).pending → (t.entry k).pending = true →
    x.trigger = true → s.Triggers t .restriction (b8 (k.val + 1))
  placed : x.enable = true → (t.entry k).pending ≠ (s.entry k).pending → (s.entry k).latched = false →
    x.edge.names (t.entry k).pending → s.mgmt.noticeAddress ≠ 0 → s.mgmt.enables.restriction = true →
    t.Notifies ⟨.restriction, b8 (k.val + 1), if (t.entry k).pending then 1 else 0, s.clock.time⟩
  notice : x.enable = true → (t.entry k).pending ≠ (s.entry k).pending → (s.entry k).latched = false →
    x.edge.names (t.entry k).pending → s.mgmt.noticeAddress ≠ 0 → s.mgmt.enables.restriction = true →
    (s.port s.mgmt.noticeSide).tx ≠ none →
    (s.port s.mgmt.noticeSide).threshold ≤ (s.port s.mgmt.noticeSide).forward.length →
    ⟨.restriction, b8 (k.val + 1), if (t.entry k).pending then 1 else 0, s.clock.time⟩ ∈ t.mgmt.notices

/-- A restriction entry takes a condition as the first thing of an event: its pending state is computed (R122), and
a change of it is taken as an edge with the entry's settings, whose notice is offered first (R185). -/
structure State.TakesCondition (s t : State) (k : Fin 20) (c : Bool) : Prop where
  offered : (s.entry k).enable = true → (t.entry k).pending ≠ (s.entry k).pending → (s.entry k).latched = false →
    (s.entry k).edge.names (t.entry k).pending → s.mgmt.noticeAddress ≠ 0 → s.mgmt.enables.restriction = true →
    s.offersFirst t ⟨.restriction, b8 (k.val + 1), if (t.entry k).pending then 1 else 0, s.clock.time⟩
  condition : (t.entry k).condition = c
  pending : (t.entry k).pending = ((c != (s.entry k).invert) || (s.entry k).force)
  edge : s.TakesEdge t k (s.entry k)

/-- A match entry matches a frame (R32). -/
abbrev MatchEntry.meets (m : MatchEntry) (f : Frame) : Prop :=
  m.enable = true ∧ f.kind = m.kind ∧ (m.source = 0 ∨ m.source = f.src) ∧ m.offset < f.payload.length ∧
    f.payload.getD m.offset 0 &&& m.mask = m.value &&& m.mask

/-- The FRAME record of a match entry (R32): the frame's KIND, SRC and first eight payload bytes. -/
def frameRecord (time : Time) (seq : BitVec 32) (k : Fin 4) (f : Frame) : Record :=
  ⟨time, seq, .frame, b8 k.val, [f.kind, f.src] ++ (List.range 8).map (fun j => f.payload.getD j 0) ++ [0, 0, 0, 0]⟩

/-- The FRAME records of the match entries of a list that match a frame, from a sequence on (R32). -/
def State.frameRecords (s : State) (f : Frame) : BitVec 32 → List (Fin 4) → List Record
  | _, [] => []
  | q, k :: ks =>
    if (s.cls.matchers.get k).meets f then frameRecord s.clock.time q k f :: s.frameRecords f (q + 1) ks
    else s.frameRecords f q ks

/-- The state in which a match entry is tested: the entries of lower number have been (R32). -/
def State.matchedBelow (u : State) (f : Frame) (k : Fin 4) : State :=
  (([0, 1, 2, 3] : List (Fin 4)).filter (fun j => decide (j < k))).foldl (State.testMatch f) u

/-! ### What an evaluation offers -/

/-- An evaluation takes an axle output to its station entry, if one is bound (R111): it is offered where its content is
not yet sent or differs from what was last sent, and its refresh timer restarts; where it is unchanged, or no entry is
bound, no command of it is new. -/
structure State.SendsEffort (s t : State) (b : Tables) (i : Fin 3) : Prop where
  offered : ∀ e, s.converterOf i = some e → (s.out i).lastSent ≠ some (t.out i).content →
    (t.port e.side).commands i.castSucc (t.effortFrame i e) ∧ (t.out i).lastSent = some (t.out i).content ∧
      (t.out i).refresh = some ⟨s.clock.time, b.supervision.tRefresh⟩
  kept : s.converterOf i = none ∨ (s.out i).lastSent = some (t.out i).content →
    (t.out i).lastSent = (s.out i).lastSent ∧ (t.out i).refresh = (s.out i).refresh ∧
      ∀ p, ∀ c ∈ (t.port p).command, c.target = i.castSucc → c ∈ (s.port p).command

/-- The same of the pressure output (R111). -/
structure State.SendsPressure (s t : State) (b : Tables) : Prop where
  offered : ∀ e, s.valve = some e → s.blend.pressure.lastSent ≠ some t.blend.pressure.content →
    (t.port e.side).commands 3 (t.pressureFrame e) ∧ t.blend.pressure.lastSent = some t.blend.pressure.content ∧
      t.blend.pressure.refresh = some ⟨s.clock.time, b.supervision.tRefresh⟩
  kept : s.valve = none ∨ s.blend.pressure.lastSent = some t.blend.pressure.content →
    t.blend.pressure.lastSent = s.blend.pressure.lastSent ∧ t.blend.pressure.refresh = s.blend.pressure.refresh ∧
      ∀ p, ∀ c ∈ (t.port p).command, c.target = 3 → c ∈ (s.port p).command

/-- Stage 9 holds an axle (R105): its target lies below its effort, it is CLEAR or SUSPECT and in service, the demand
does not fall, there is no emergency, and no handover timer runs or the effort is at most the axle's start value. -/
structure State.Holds (s : State) (w : BlendWork) (i : Fin 3) : Prop where
  falls : (w.axles.get i).target < (s.out i).content.effort
  steady : (s.axle i).state = .clear ∨ (s.axle i).state = .suspect
  serves : s.inService i = true
  demand : s.blend.fPrev ≤ w.fDem
  calm : s.demand.emergency = false
  start : s.blend.handover = none ∨ (s.out i).content.effort ≤ (s.out i).start

/-! ### What the slide unit hands to the sequencer -/

/-- Some own configured axle is SLIDING (item 4 of R71). -/
def State.Slides (s : State) (b : Tables) : Prop := ∃ j : Fin 3, j.val < b.bogie.n ∧ (s.axle j).state = .sliding

/-- The row of an AXLE record (R71): global axle number, old and new state, Vref, speed, last creep, slide factor. -/
def axleRow (s : State) (i : Fin 3) (old new : SlideState) (speed creep factor : Nat) :
    RecordKind × Byte × List Byte :=
  (.axle, b8 (3 * s.ident.position.val + i.val),
    [old.code, new.code] ++ be16 s.slide.vref ++ be16 speed ++ be16 creep ++ be16 factor)

/-- The row of an AIR record (R86): bogie, old and new state, standing p_set, p_out, dump time used. -/
def airRow (s : State) (old new : AirState) (pSet pOut used : Nat) : RecordKind × Byte × List Byte :=
  (.air, b8 s.ident.position.val, [old.code, new.code] ++ be16 pSet ++ be16 pOut ++ be16 used)

/-- The row of a MODE record (R44, R51): bogie, form, old and new, mode, application state and number, cause. -/
def modeRow (s : State) (form old new : Byte) (mode : Mode) (app : AppState) (number : BitVec 32) (cause : Byte) :
    RecordKind × Byte × List Byte :=
  (.mode, b8 s.ident.position.val, [form, old, new, mode.code, app.code] ++ be32 number ++ [cause])

/-- What the sequencer makes of a slide hand-on in ACTIVE mode, and what of it stands after the evaluation that follows
(R79 to R83, R86; a p_set of 0 ends it, R84). The hand-on says whether an own axle entered SLIDING; whether any slides is
read after it; the AIR record follows the AXLE records of the event, which `rows` gives. -/
structure State.SlideHandedOn (s t : State) (b : Tables) (entered : Prop) (rows : List (RecordKind × Byte × List Byte)) :
    Prop where
  /-- From NORMAL, HOLD or REAPPLY an entry to SLIDING begins a dump on what is left of the budget (R79, R82, R83). -/
  dump : s.air.state ≠ .dump → entered → t.Slides b → s.air.exhausted = false → s.air.pSet ≠ 0 →
    s.air.used < b.supervision.dumpBudget →
    t.air.exhausted = false ∧ t.air.used = s.air.used ∧ t.air.dumpStart = s.clock.time ∧ t.air.holdTimer = none ∧
    t.air.stepTimer = none ∧ t.air.mismatchTimer = none ∧
    (0 < t.air.pSet → t.air.state = .dump ∧
      t.air.dumpTimer = some ⟨s.clock.time, b.supervision.dumpBudget - s.air.used⟩ ∧
      t.blend.pressure.content.pressure = 0 ∧ t.blend.pressure.content.phase = .dump) ∧
    (t.air.pSet = 0 → t.air.state = .normal ∧ t.air.dumpTimer = none) ∧
    (s.RingLaw → s.logs t (rows ++ [airRow s s.air.state .dump s.air.pSet 0 s.air.used]))
  /-- Where no budget is left, the exhaustion is taken instead, with an AIR record where the state changes (R79, R81). -/
  exhaust : s.air.state ≠ .dump → entered → t.Slides b → s.air.exhausted = false → s.air.pSet ≠ 0 →
    b.supervision.dumpBudget ≤ s.air.used →
    t.air.exhausted = true ∧ t.air.used = b.supervision.dumpBudget ∧ t.air.state = .normal ∧ t.air.dumpTimer = none ∧
    t.air.holdTimer = none ∧ t.air.stepTimer = none ∧ (t.entry 13).condition = true ∧
    (s.RingLaw → s.air.state ≠ .normal →
      s.logs t (rows ++ [airRow s s.air.state .normal s.air.pSet s.air.pSet b.supervision.dumpBudget]))
  /-- In NORMAL, with EXHAUSTED set or no pressure to relieve, no dump begins (R79, R81). -/
  refuse : s.air.state = .normal → s.air.exhausted = true ∨ s.air.pSet = 0 →
    t.air.state = .normal ∧ t.air.exhausted = s.air.exhausted ∧ t.air.used = s.air.used
  /-- A dump goes on while an axle slides, an entry to SLIDING in it changing nothing (R80). -/
  goesOn : s.air.state = .dump → t.Slides b → t.air.dumpStart = s.air.dumpStart ∧ t.air.exhausted = s.air.exhausted ∧
    t.air.held = s.air.held ∧
    (0 < t.air.pSet → t.air.state = .dump ∧ t.air.dumpTimer = s.air.dumpTimer ∧ t.air.used = s.air.used)
  /-- With the end of sliding a dump passes to HOLD: its time is used, and the cylinder is held at the last measured
  pressure, at most p_set, or at 0 where the valve is not FRESH or reports FAULT (R80). -/
  hold : s.air.state = .dump → ¬t.Slides b →
    let used := min (s.air.used + (s.clock.time - s.air.dumpStart).toNat) b.supervision.dumpBudget
    t.air.used = used ∧ t.air.dumpTimer = none ∧ t.air.exhausted = s.air.exhausted ∧
    (∀ e, t.valve = some e → e.state = .fresh → s.air.status = .ok → t.air.held = min s.air.measured s.air.pSet) ∧
    ((∀ e, t.valve = some e → e.state ≠ .fresh) ∨ s.air.status = .fault → t.air.held = 0) ∧
    (0 < t.air.pSet → t.air.state = .hold ∧ t.air.holdTimer = some ⟨s.clock.time, b.supervision.tSlide⟩) ∧
    (t.air.pSet = 0 → t.air.state = .normal ∧ t.air.holdTimer = none) ∧
    (s.RingLaw → s.logs t (rows ++ [airRow s .dump .hold s.air.pSet (min t.air.held s.air.pSet) used]))
  /-- Without an entry to SLIDING the hand-on changes nothing outside DUMP (R79, R82, R83). -/
  stays : s.air.state ≠ .dump → ¬(entered ∧ t.Slides b) → s.air.Keeps t.air

/-! ### What an edit of the station table does to the other blocks -/

/-- Whether an entry that an edit writes or removes has a role and binds a number. -/
def EditBinds (es : List Station) (role : Role) (k : Nat) : Prop := ∃ x ∈ es, x.role = role ∧ k ∈ x.bound

/-- What an edit does to the blocks that depend on the entries it touches, the old entry of its address and the one
written, of which one may be absent (R22). The samples of the axles that an AXLE_UNIT entry binds are STALE with a last good
speed of 0, and an own one is UNSENSED in ACTIVE mode (R29, R69). A CAB entry puts the demand unit into START_HOLD, levels
0, a PENALTY apart, and so opens or resumes the application (R37, R44, R45). A CONVERTER entry clears the achieved effort of
an own axle it binds (R96), its status kept (log 32); what was last sent of that axle's output, or of the pressure output
for a VALVE entry of the bogie, is none, and in ACTIVE mode the output is offered again where an entry is then bound (R113).
An old VALVE entry that was FRESH ends the mismatch timer (R90). The axles are handed over as they are dropped, in an order
that is the model's choice (logs 36 and 53). -/
structure State.Edited (s t : State) (es : List Station) : Prop where
  samples : ∀ g : Fin 12, (EditBinds es .axleUnit g.val → t.sample g = { s.sample g with
      state := .stale, lastGood := 0, freshTimer := none, concealTimer := none }) ∧
    (¬EditBinds es .axleUnit g.val → t.sample g = s.sample g)
  axles : ∀ i : Fin 3,
    let dropped := EditBinds es .axleUnit (3 * s.ident.position.val + i.val) ∧ s.demand.mode = .active ∧ i.val < s.n ∧
      (s.axle i).state ≠ .isolated ∧ (s.axle i).state ≠ .unsensed
    (dropped → (t.axle i).state = .unsensed ∧ (t.axle i).factor = 0 ∧ (t.axle i).suspect = 0 ∧
      (s.RingLaw → s.logs t [axleRow s i (s.axle i).state .unsensed 0 (s.axle i).lastCreep 0])) ∧
    (¬dropped → t.axle i = s.axle i)
  cab : (∃ x ∈ es, x.role = .cab) →
    (s.demand.hold = .penalty → t.demand.hold = .penalty ∧ t.demand.lLast = s.demand.lLast ∧
      t.demand.iLast = s.demand.iLast) ∧
    (s.demand.hold ≠ .penalty → t.demand.hold = .startHold ∧ t.demand.lLast = 0 ∧ t.demand.iLast = 0) ∧
    t.demand.emergency = s.demand.emergency ∧ t.demand.mode = s.demand.mode ∧ t.demand.app = .applied ∧
    t.demand.appNumber = (if s.demand.app = .released then s.demand.appNumber + 1 else s.demand.appNumber) ∧
    (s.demand.app = .releasing → t.demand.releaseTimer = none) ∧
    (s.RingLaw → s.demand.app ≠ .applied →
      s.logs t [modeRow s 0 s.demand.app.code 1 s.demand.mode .applied t.demand.appNumber 0])
  noCab : (∀ x ∈ es, x.role ≠ .cab) → t.demand = s.demand
  achieved : ∀ i : Fin 3, (t.out i).status = (s.out i).status ∧ (t.out i).achieved =
    (if ∃ x ∈ es, x.role = .converter ∧ 3 * s.ident.position.val + i.val ∈ x.bound then 0 else (s.out i).achieved)
  effort : ∀ i : Fin 3, EditBinds es .converter (3 * s.ident.position.val + i.val) →
    (s.demand.mode ≠ .active ∨ t.converterOf i = none → (t.out i).lastSent = none ∧ (t.out i).refresh = none) ∧
    (∀ b e, s.demand.mode = .active → s.banks.active = some b → t.converterOf i = some e →
      (t.out i).lastSent = some (t.out i).content ∧ (t.out i).refresh = some ⟨s.clock.time, b.supervision.tRefresh⟩ ∧
      (t.port e.side).commands i.castSucc (t.effortFrame i e))
  pressure : EditBinds es .valve s.ident.position.val →
    (s.demand.mode ≠ .active ∨ t.valve = none →
      t.blend.pressure.lastSent = none ∧ t.blend.pressure.refresh = none) ∧
    (∀ b e, s.demand.mode = .active → s.banks.active = some b → t.valve = some e →
      t.blend.pressure.lastSent = some t.blend.pressure.content ∧
      t.blend.pressure.refresh = some ⟨s.clock.time, b.supervision.tRefresh⟩ ∧
      (t.port e.side).commands 3 (t.pressureFrame e))
  supervision : (∃ x ∈ es, x.role = .valve ∧ s.ident.position.val ∈ x.bound ∧ x.state = .fresh) →
    t.air.mismatchTimer = none

/-! ### Laws that every step keeps -/

/-- A port's FORWARD queue holds at most 16 frames (R6), its threshold is 1..16 (R7), its fairness count at most 4
(R10), and its COMMAND queue holds one command for a target (R8). -/
structure Port.Law (x : Port) : Prop where
  forward : x.forward.length ≤ 16
  low : 1 ≤ x.threshold
  high : x.threshold ≤ 16
  fairness : x.fairness ≤ 4
  targets : (x.command.map (fun c => c.target)).Nodup

/-- Both ports keep the law, and outside ACTIVE mode both COMMAND queues are empty (R9). -/
structure State.LinkLaw (s : State) : Prop where
  port : ∀ p, (s.port p).Law
  quiet : s.demand.mode ≠ .active → ∀ p, (s.port p).command = []

/-- The governing index of a path: the entry that is enabled, pending, on the path and above its limiter, of the
highest priority and, among equals, the highest number; 0 where there is none (R126). -/
structure Restrict.Governs (r : Restrict) (path : Path) (limiter k : Nat) : Prop where
  one : ∀ i : Fin 20, k = i.val + 1 → (r.entries.get i).enable = true ∧ (r.entries.get i).pending = true ∧
    (r.entries.get i).path = path ∧ limiter < (r.entries.get i).priority
  best : ∀ i : Fin 20, (r.entries.get i).enable = true → (r.entries.get i).pending = true →
    (r.entries.get i).path = path → limiter < (r.entries.get i).priority →
    ∃ j : Fin 20, k = j.val + 1 ∧ ((r.entries.get i).priority < (r.entries.get j).priority ∨
      ((r.entries.get i).priority = (r.entries.get j).priority ∧ i.val ≤ j.val))
  range : k ≤ 20

/-- Each entry's pending state is the one R122 computes from its condition, invert and force, and each governing
index is the one R126 gives. -/
structure State.GoverningLaw (s : State) : Prop where
  pending : ∀ i, (s.entry i).pending = (((s.entry i).condition != (s.entry i).invert) || (s.entry i).force)
  electric : s.restrict.Governs .electric s.restrict.limElectric s.restrict.govElectric
  air : s.restrict.Governs .air s.restrict.limAir s.restrict.govAir

/-- A station entry that is neither FRESH nor LATE: NEW or STALE (R31). -/
abbrev Station.Lost (e : Station) : Prop := e.state ≠ .fresh ∧ e.state ≠ .late

/-- The condition of every restriction entry is the present state of its source, by its owner's rule (R7, R31, R42, R57,
R72, R86, R90, R120, R121, R146, R164): entry 1 the CAB entry LATE, 2 a PENALTY hold, 3 the emergency latch, 4
REFERENCE_LOST, 5 the RADAR entry lost, 6 to 8 in ACTIVE mode an own configured axle UNSENSED, ISOLATED or SLIDING, 9 such an
axle without a live converter, 10 and 11 one whose live converter reports DERATED or FAULT, 12 with tables active no live
valve, 13 and 14 in ACTIVE mode CYLINDER_MISMATCH and EXHAUSTED, 15 and 16 a silent port, 18 a deferred adoption, 20 none.
Entries 17 and 19, a congested FORWARD queue and an unavailable store, are handed over in settling, and are spoken of where
it has come to its end (log 37). Outside ACTIVE mode CYLINDER_MISMATCH is false and its timer does not run (R51, R90). -/
structure State.ConditionLaw (s : State) : Prop where
  late : (s.entry 0).condition = true ↔ ∃ e, s.stationOfRole .cab = some e ∧ e.state = .late
  penalty : (s.entry 1).condition = true ↔ s.demand.hold = .penalty
  emergency : (s.entry 2).condition = s.demand.emergency
  reference : (s.entry 3).condition = s.slide.refLost
  radar : (s.entry 4).condition = true ↔ ∃ e, s.stationOfRole .radar = some e ∧ e.Lost
  axle : ∀ k ∈ [((5 : Fin 20), SlideState.unsensed), (6, .isolated), (7, .sliding)],
    ((s.entry k.1).condition = true ↔ s.demand.mode = .active ∧ ∃ i : Fin 3, i.val < s.n ∧ (s.axle i).state = k.2)
  converter : (s.entry 8).condition = true ↔ ∃ i : Fin 3, i.val < s.n ∧ ∀ e, s.converterOf i = some e → e.Lost
  status : ∀ k ∈ [((9 : Fin 20), ConverterStatus.derated), (10, .fault)], ((s.entry k.1).condition = true ↔
    ∃ i : Fin 3, i.val < s.n ∧ ∃ e, s.converterOf i = some e ∧ ¬e.Lost ∧ e.lastStatus = k.2)
  valve : (s.entry 11).condition = true ↔ s.banks.active ≠ none ∧ ∀ e, s.valve = some e → e.Lost
  mismatch : (s.entry 12).condition = true ↔ s.demand.mode = .active ∧ s.air.mismatch = true
  exhausted : (s.entry 13).condition = true ↔ s.demand.mode = .active ∧ s.air.exhausted = true
  silence : (s.entry 14).condition = s.link.a.silent ∧ (s.entry 15).condition = s.link.b.silent
  congested : s.settleOne = none → ((s.entry 16).condition = true ↔ ∃ p, (s.port p).threshold ≤ (s.port p).forward.length)
  deferred : (s.entry 17).condition = s.banks.pendingAdoption
  store : s.settleOne = none → ((s.entry 18).condition = true ↔ s.hist.scan = none ∧
    (∀ k, (s.slot k).header.state ≠ .free) ∧ (s.hist.policy = .stopWhenFull ∨
      ∀ k, (s.slot k).header.state = .complete ∨ (s.slot k).header.state = .incomplete →
        (s.slot k).header.isProtected = true))
  never : (s.entry 19).condition = false
  quiet : s.demand.mode ≠ .active → s.air.mismatch = false ∧ s.air.mismatchTimer = none

/-- The pending notices: none while the notice address is 0, none of a kind that is not enabled, one of a subject
(R183, R184). -/
structure State.NoticeLaw (s : State) : Prop where
  address : s.mgmt.noticeAddress = 0 → s.mgmt.notices = []
  enabled : ∀ x ∈ s.mgmt.notices, s.mgmt.enables.on x.kind = true
  subjects : (s.mgmt.notices.map (fun x => (x.kind, x.subject))).Nodup

/-- The recorder: an incident is current outside IDLE alone; at most four triggers are queued, and they wait for the
scan or for a commit alone; the scan finds no incident current; the windows are in their ranges (R156, R161, R163,
R172, R173). -/
structure State.CaptureLaw (s : State) : Prop where
  idle : s.hist.capture = .idle → s.hist.current = none
  busy : s.hist.capture ≠ .idle → s.hist.current ≠ none
  queue : s.hist.queue.length ≤ 4
  waits : s.hist.scan = none → s.hist.capture ≠ .committing → s.hist.queue = []
  scan : s.hist.scan ≠ none → s.hist.capture = .idle
  pre : s.hist.pre ≤ 256
  post : s.hist.post ≤ 256
  both : s.hist.pre + s.hist.post ≤ 384

/-- A band's cut factor and confirm count are in their load ranges (R138). -/
structure Band.InRange (b : Band) : Prop where
  cut : b.cut ≤ 900
  confirm : b.confirm ≤ 8

/-- The slide factor law of a slide record (R61): S by the state, a suspect count in SUSPECT alone, an allowance
running in SLIDING alone, an episode time in its range. -/
structure SlideRecord.Law (r : SlideRecord) : Prop where
  full : r.state = .clear ∨ r.state = .suspect → r.factor = 1000
  none : r.state = .isolated ∨ r.state = .unsensed → r.factor = 0
  cut : r.state = .sliding → r.factor ≤ 900
  rising : r.state = .recovering → r.factor < 1000
  counting : r.state = .suspect → 1 ≤ r.suspect ∧ r.suspect ≤ 7
  still : r.state ≠ .suspect → r.suspect = 0
  allowance : r.allowance.isSome = true ↔ r.state = .sliding
  episode : r.episodeTime ≤ 30000

/-- Every own axle keeps the slide factor law, and the bands that transitions read, active or staged, are in their
ranges (R61, R138). -/
structure State.SlideLaw (s : State) : Prop where
  axles : ∀ i, (s.axle i).Law
  active : ∀ b k, s.banks.active = some b → (b.bands.get k).InRange
  staged : ∀ k, (s.banks.staged.bands.get k).InRange

/-- The pressures of a BOGIE table are in the order that validation asks for (R145), p_emerg at most 700 (R139). -/
structure BogieTable.Ordered (x : BogieTable) : Prop where
  indep : x.pIndepFull ≤ x.pMax
  full : x.pMax ≤ x.pEmerg
  most : x.pEmerg ≤ 700

/-- The pressure law but for the cap (R77, R104): p_out is at most the standing p_set, which is at most 700; in ACTIVE
mode p_out is at most p_emerg, outside emergency at most p_max, and the EMERGENCY flag is the latch; outside ACTIVE mode
p_set is 0 with the sequencer in NORMAL. It holds by the order of the tables that are active or stand to be adopted, and by
the range of the independent level. -/
structure State.PressureLaw (s : State) : Prop where
  out : s.blend.pressure.content.pressure ≤ s.air.pSet
  most : s.air.pSet ≤ 700
  emerg : ∀ b, s.demand.mode = .active → s.banks.active = some b → s.blend.pressure.content.pressure ≤ b.bogie.pEmerg
  normal : ∀ b, s.demand.mode = .active → s.banks.active = some b → s.blend.pressure.content.emergency = false →
    s.blend.pressure.content.pressure ≤ b.bogie.pMax
  latch : s.demand.mode = .active → s.banks.active ≠ none → s.blend.pressure.content.emergency = s.demand.emergency
  quiet : s.demand.mode ≠ .active → s.air.pSet = 0 ∧ s.air.state = .normal
  active : ∀ b, s.banks.active = some b → b.bogie.Ordered
  staged : s.banks.staged.bogie.pEmerg ≤ 700
  deferred : s.banks.pendingAdoption = true → s.banks.states.bogie = .loaded → s.banks.staged.bogie.Ordered
  level : s.demand.iLast ≤ 1000

/-- The cap of the pressure law (R104): in ACTIVE mode, outside emergency, p_out is at most the action of the entry that
governs the AIR path, while one governs. -/
def State.CapLaw (s : State) : Prop := ∀ k : Fin 20, s.demand.mode = .active → s.banks.active ≠ none →
  s.blend.pressure.content.emergency = false → s.restrict.govAir = k.val + 1 →
  s.blend.pressure.content.pressure ≤ (s.entry k).action

/-- The AIR path holds none of the entries 14, 17 and 19, whose conditions an event can still hand over after its
evaluation (R7, R86, R164; log 8). -/
abbrev State.AirIsSettled (s : State) : Prop :=
  (s.entry 13).path ≠ .air ∧ (s.entry 16).path ≠ .air ∧ (s.entry 18).path ≠ .air

/-- Two station entries keep the binding rules (R20): there is one CAB and one RADAR entry, and no two entries of one
role bind a number both. -/
def Station.Apart (x y : Station) : Prop :=
  x.role = y.role → x.role ≠ .cab ∧ x.role ≠ .radar ∧ ∀ k ∈ x.bound, k ∉ y.bound

/-- The station table (R19, R20): at most 32 entries of different addresses that keep the binding rules, a CONVERTER and
a VALVE entry binding one number each. -/
structure State.StationLaw (s : State) : Prop where
  size : s.cls.stations.length ≤ 32
  addresses : (s.cls.stations.map (fun e => e.address)).Nodup
  one : ∀ e ∈ s.cls.stations, e.role = .converter ∨ e.role = .valve → e.bound.length = 1
  apart : ∀ x ∈ s.cls.stations, ∀ y ∈ s.cls.stations, x.address ≠ y.address → x.Apart y

/-- The dump law (R81): within an application the dump time used is at most the dump budget, a dump runs on what is left
of it, and it is used whole at the exhaustion. Outside an application, and where the mode is not ACTIVE, the sequencer
rests in NORMAL with a setpoint of 0, and in RELEASED no dump time is used (R47, R77). The bogie is demanded in APPLIED
alone (R44, R45), and the active bank is full in another mode than TRANSPARENT (R49). -/
structure State.DumpLaw (s : State) : Prop where
  bank : s.demand.mode ≠ .transparent → s.banks.active ≠ none
  applied : s.demand.app = .applied ↔ s.demand.demanded = true
  used : s.air.used ≤ s.dumpBudget
  whole : s.air.exhausted = true → s.air.used = s.dumpBudget
  dump : s.air.state = .dump → s.air.exhausted = false ∧ s.air.used < s.dumpBudget ∧
    s.air.dumpTimer = some ⟨s.air.dumpStart, s.dumpBudget - s.air.used⟩
  timer : s.air.state ≠ .dump → s.air.dumpTimer = none
  rest : s.demand.app ≠ .applied ∨ s.demand.mode ≠ .active → s.air.pSet = 0 ∧ s.air.state = .normal
  released : s.demand.app = .released → s.air.used = 0 ∧ s.air.exhausted = false

/-- The allotment law and the cut-off law (R109). An axle's commanded effort is at most its unslid allotment, which is at
most the equal share and the capability; a held axle keeps at most its start value, while the handover timer runs. It is 0
where the axle is out of service (its slide state ISOLATED or UNSENSED, its converter NEW, STALE, in FAULT or not bound,
R95), in an emergency, and outside ACTIVE mode, where nothing is held. -/
structure State.EffortLaw (s : State) : Prop where
  bank : s.demand.mode ≠ .transparent → s.banks.active ≠ none
  allotted : ∀ i, (s.out i).pendingEffort = none → (s.out i).content.effort ≤ (s.blend.work.axles.get i).allotment
  held : ∀ i, (s.out i).pendingEffort ≠ none →
    s.blend.handover ≠ none ∧ (s.out i).content.effort ≤ (s.out i).start
  share : ∀ i, (s.blend.work.axles.get i).allotment ≤ s.blend.work.d ∧
    (s.blend.work.axles.get i).allotment ≤ (s.blend.work.axles.get i).capability
  cut : ∀ i, s.demand.mode ≠ .active ∨ s.inService i = false ∨ s.demand.emergency = true →
    (s.out i).content.effort = 0
  quiet : s.demand.mode ≠ .active → s.blend.handover = none ∧ ∀ i, (s.out i).pendingEffort = none

/-- What was last sent (R111 to R113): in ACTIVE mode every output of a bound target was last sent as it stands, and its
refresh timer runs; an output with no entry, and every output in another mode, has nothing sent and no timer. -/
structure State.SendLaw (s : State) : Prop where
  bank : s.demand.mode ≠ .transparent → s.banks.active ≠ none
  effort : ∀ i, s.demand.mode = .active → s.converterOf i ≠ none →
    (s.out i).lastSent = some (s.out i).content ∧ (s.out i).refresh ≠ none
  noEffort : ∀ i, s.demand.mode ≠ .active ∨ s.converterOf i = none →
    (s.out i).lastSent = none ∧ (s.out i).refresh = none
  pressure : s.demand.mode = .active → s.valve ≠ none →
    s.blend.pressure.lastSent = some s.blend.pressure.content ∧ s.blend.pressure.refresh ≠ none
  noPressure : s.demand.mode ≠ .active ∨ s.valve = none →
    s.blend.pressure.lastSent = none ∧ s.blend.pressure.refresh = none

end Sys2Proof.Machine
end

