-- ==== Sys2Proof/WellFormed.lean ====
section
/-!
DEFINITION. Which command terms a row can spell: the lengths R190 and R191 give, and the codes they list.
Values that a wire can carry and the device refuses are well formed: the device answers them.
-/

namespace Sys2Proof

/-- The request codes of R191. -/
def knownRequestCode (code : Byte) : Bool :=
  [0x01, 0x02, 0x03, 0x04, 0x05, 0x10, 0x11, 0x18, 0x19, 0x1A, 0x1B, 0x20, 0x21, 0x22, 0x28, 0x29, 0x2A,
    0x2B, 0x30, 0x31, 0x32, 0x38, 0x39, 0x3A, 0x3B, 0x3C, 0x3D, 0x3E, 0x3F].contains code.toNat

/-- The most parameter bytes after the request head (R190, 56 less 5). -/
def maxParams : Nat := 51

/-- Well-formedness of a command: 1..4 samples (R190), a segment and parameters that fit one frame,
mark data that fit one frame, and an unknown code that is unknown. -/
def WellFormed : Instr → Bool
  | .axleSpeed _ samples => decide (1 ≤ samples.length) && decide (samples.length ≤ 4)
  | .loadSegment _ _ contents => decide (contents.length + 1 ≤ maxParams)
  | .trigger _ _ mark => decide (mark.length + 1 ≤ maxParams)
  | .unknownRequestCode _ code params =>
    !knownRequestCode code && decide (params.length ≤ maxParams)
  | .powerOnReset _ _ => true
  | .frameArrival _ _ => true
  | .demand _ _ _ _ => true
  | .groundSpeed _ _ _ => true
  | .effortReport _ _ _ _ => true
  | .pressureReport _ _ _ _ => true
  | .transmissionComplete _ => true
  | .silenceTimerExpiry _ => true
  | .stationFreshnessExpiry _ => true
  | .stationConcealExpiry _ => true
  | .axleFreshnessExpiry _ => true
  | .axleConcealExpiry _ => true
  | .releaseConfirmExpiry => true
  | .referenceLostExpiry => true
  | .allowanceTimerExpiry _ => true
  | .dumpTimerExpiry => true
  | .holdTimerExpiry => true
  | .stepTimerExpiry => true
  | .mismatchTimerExpiry => true
  | .handoverTimerExpiry => true
  | .refreshTimerExpiry _ => true
  | .claimHeaderWriteComplete _ => true
  | .commitEraseComplete => true
  | .recordCellWriteComplete => true
  | .commitHeaderWriteComplete => true
  | .protectHeaderWriteComplete _ => true
  | .eraseComplete _ => true
  | .scanOperationComplete => true
  | .identify _ => true
  | .readStatus _ _ => true
  | .setMode _ _ => true
  | .setNotice _ _ _ => true
  | .restart _ => true
  | .setPort _ _ _ _ => true
  | .readPort _ _ => true
  | .setStation _ _ _ _ _ _ _ _ _ _ _ => true
  | .clearStation _ _ => true
  | .readStation _ _ => true
  | .setMatch _ _ _ _ _ _ _ _ => true
  | .readAxle _ => true
  | .restoreAxle _ => true
  | .readBogie _ _ => true
  | .setRestriction _ _ _ _ _ _ _ _ _ _ _ => true
  | .readRestrictions _ _ => true
  | .ackRestrictions _ _ => true
  | .setLimiter _ _ _ => true
  | .adopt _ => true
  | .discardStaged _ => true
  | .setRecorder _ _ _ _ _ => true
  | .readIncidents _ _ => true
  | .setCursor _ _ _ => true
  | .readRecords _ => true
  | .protect _ _ => true
  | .unprotect _ _ => true
  | .eraseIncident _ _ => true
  | .eraseHeaderWriteComplete _ => true

end Sys2Proof
end

