-- ==== Sys2Proof/Certificates/Slice0/Obligations.lean ====
section
/-!
DEFINITION. The statements for the provers.
-/

open Sys2Proof Sys2Proof.Machine

/-! ### Steps -/

/-- One step takes the command at the front of the queue and runs it with the rest of the queue. -/
def Obligations.StepTakesTheFrontCommand : Prop := ∀ (c : Instr) (rest : List Instr) (s : State),
  step { s with pending := c :: rest } = exec c { s with pending := rest }

/-- With no command waiting, a step takes up one event that is due as a waiting command, and where none is due moves
the clock one byte time on: 200 of them make a millisecond, and what is in progress has one byte time less to go: the
transmissions, each slot's erase and the header write at its head, the commit's operation and the scan's. Nothing else
changes. That time runs while the queue is empty is the model's choice (logs 2 and 3), from section 1.1 and section
11.5. -/
def Obligations.IdleStepsRunTheClock : Prop := ∀ s : State, s.pending = [] → ∃ t, step s = .next t ∧
  (∀ c rest, s.dueEvents = c :: rest → t.clock.time = s.clock.time ∧ t.clock.sub = s.clock.sub ∧
    (∃ d ∈ s.dueEvents, t.pending = [d]) ∧
    t = { s with pending := t.pending, clock := t.clock }) ∧
  (s.dueEvents = [] → t.pending = [] ∧
    (s.clock.sub + 1 < 200 → t.clock.time = s.clock.time ∧ t.clock.sub = s.clock.sub + 1) ∧
    (200 ≤ s.clock.sub + 1 → t.clock.time = s.clock.time + 1 ∧ t.clock.sub = 0) ∧
    (∀ p, t.port p = { s.port p with tx := (s.port p).tx.map (fun x => ⟨x.frame, x.left - 1⟩) }) ∧
    (∀ k, t.slot k = { s.slot k with ops := (t.slot k).ops, erase := (s.slot k).erase.map (fun n => n - 1) } ∧
      ((s.slot k).ops = [] → (t.slot k).ops = []) ∧
      (∀ op ops, (s.slot k).ops = op :: ops → (t.slot k).ops = ⟨op.kind, op.content, op.left - 1⟩ :: ops)) ∧
    (s.hist.current = none → t.hist.current = none) ∧
    (∀ i, s.hist.current = some i → ∃ op, t.hist.current = some { i with op := op } ∧
      (i.op = none ∨ i.op = some .header → op = i.op) ∧
      (∀ n, i.op = some (.erase n) → op = some (.erase (n - 1))) ∧
      (∀ k n, i.op = some (.cell k n) → op = some (.cell k (n - 1)))) ∧
    t.hist = { s.hist with
      current := t.hist.current, scan := s.hist.scan.map (fun x => ⟨x.slot, x.phase, x.left - 1⟩) } ∧
    t.link.seq = s.link.seq ∧ t.store.nvNext = s.store.nvNext ∧ t.store.draws = s.store.draws ∧
    t.clock.draws = s.clock.draws ∧ t.work = s.work ∧
    t.cls = s.cls ∧ t.demand = s.demand ∧ t.slide = s.slide ∧ t.air = s.air ∧ t.blend = s.blend ∧
    t.restrict = s.restrict ∧ t.banks = s.banks ∧ t.mgmt = s.mgmt ∧ t.ident = s.ident)

/-- Every command answers a next state in every state, and the commands that wait, the time base and the identity
stay as they were, but for the reset, which sets the last two. That no command stops is read from the spec (log 30); that
a completion or an expiry with nothing in progress leaves the state as it is (log 4), and that the reset keeps the
commands that wait (log 2), are the model's choices. -/
def Obligations.EveryCommandCompletes : Prop := ∀ (c : Instr) (s : State),
  ∃ t, exec c s = .next t ∧ t.pending = s.pending ∧
    ((∀ pos adr, c ≠ .powerOnReset pos adr) → t.clock = s.clock ∧ t.ident = s.ident)

/-- A command that stands for a frame acts as the arrival of that frame's bytes at its port, as the port checks, the
classifier and the responder read them. That one command is the whole arrival of its frame is read from the spec's table
of commands (log 1). -/
def Obligations.FrameCommandsAreArrivals : Prop := ∀ (c : Instr) (p : PortId) (f : Frame) (s : State),
  WellFormed c = true → frameOf c = some (p, f) → exec c s = exec (.frameArrival p f.bytes) s

/-! ### Laws that every step keeps -/

/-- Every step keeps the ring's law (R152, R153); the law of the ports' queues (R6 to R10); each entry's pending state
as R122 computes it from the entry's condition, invert and force, with the governing indices as R126 gives them; and, on
a station table that keeps its law, each entry's condition as the present state of its source by its owner's rule (R120,
R121): the CAB entry LATE, the PENALTY hold, the emergency latch, REFERENCE_LOST, the RADAR entry lost, the three slide
aggregates, the states of the converters and of the valve, CYLINDER_MISMATCH, EXHAUSTED, the silent ports, the congested
queues, the deferred adoption and the unavailable store. The congestion and the store are spoken of where settling has
come to its end, which the model bounds (log 37). -/
def Obligations.StepKeepsTheRingLinkGoverningAndConditionLaws : Prop := ∀ s t : State, step s = .next t →
  (s.RingLaw → t.RingLaw) ∧ (s.LinkLaw → t.LinkLaw) ∧ (s.GoverningLaw → t.GoverningLaw) ∧
  (s.StationLaw → s.ConditionLaw → t.ConditionLaw)

/-- Every step keeps the laws of the pending notices, and of the capture state and the trigger queue; the slide factor
law of the slide records (R61), with the bands in their load ranges; and the pressure law (R77, R104): the commanded
pressure is at most the standing setpoint, in ACTIVE mode at most p_emerg, outside emergency at most p_max, and 0 with the
sequencer in NORMAL in another mode, with the tables in the order that validation asks for. Where each governing index is
the one R126 gives, it keeps the pressure law's third bound, that outside emergency the pressure is at most the cap of the
entry that governs the AIR path, while the entries 14, 17 and 19 are not on that path: those can change in an event after
its evaluation (log 8). -/
def Obligations.StepKeepsTheNoticeCaptureSlideAndPressureLaws : Prop := ∀ s t : State, step s = .next t →
  (s.NoticeLaw → t.NoticeLaw) ∧ (s.CaptureLaw → t.CaptureLaw) ∧ (s.SlideLaw → t.SlideLaw) ∧
  (s.PressureLaw → t.PressureLaw) ∧ (s.GoverningLaw → s.CapLaw → t.AirIsSettled → t.CapLaw)

/-- Every step keeps the law of the station table (R19, R20); the dump law (R81), with the sequencer at rest outside an
application; on a table that keeps its law and slide records that keep theirs, the allotment law and the cut-off law
(R109), an axle's effort being at most its allotment but for a held axle's, and 0 where it is out of service or in an
emergency; and on a table that keeps its law, that in ACTIVE mode every output of a bound target was last sent as it
stands, with its refresh timer running, and that nothing is sent in another mode (R111 to R113). -/
def Obligations.StepKeepsTheStationDumpEffortAndSendLaws : Prop := ∀ s t : State, step s = .next t →
  (s.StationLaw → t.StationLaw) ∧ (s.DumpLaw → t.DumpLaw) ∧
  (s.StationLaw → s.SlideLaw → s.EffortLaw → t.EffortLaw) ∧ (s.StationLaw → s.SendLaw → t.SendLaw)

/-- The state after reset keeps the thirteen laws: the ring's, the transmit queues', the restriction table's, that of
the restriction entries' conditions, the notices', the recorder's, the slide records', the pressure's and its cap, the
station table's, the dump law, the allotment and cut-off laws, and that of what was sent. -/
def Obligations.ResetMeetsTheLaws : Prop := State.reset.RingLaw ∧ State.reset.LinkLaw ∧ State.reset.GoverningLaw ∧
  State.reset.ConditionLaw ∧ State.reset.NoticeLaw ∧ State.reset.CaptureLaw ∧ State.reset.SlideLaw ∧ State.reset.PressureLaw ∧
  State.reset.CapLaw ∧ State.reset.StationLaw ∧ State.reset.DumpLaw ∧ State.reset.EffortLaw ∧ State.reset.SendLaw

/-! ### Requests

A request is answered from s to t by `s.answers t`: its reply stands in the queue of the port it came on, or is on the
wire, where that port had a place for it; where it had none, R6's drop is counted instead. -/

/-- IDENTIFY is answered DONE with the codes, the revision, the position, the address base and node address, the
capacities and the time base (R180). READ_STATUS is answered with page 0 or page 1 as they stand when it is taken,
INVALID for any other page (R181). Neither changes anything. The family and part codes are free bytes (log 12), and the
widths of the revision, of the capacities and of the values of both pages (log 14), and the codes of the load states on
page 0 (log 15), and that page 0 carries the governing index and the limiter path by path (log 57), are the model's
choice. Where the port has no place for the reply, none is sent and a FORWARD drop is counted (R6). -/
def Obligations.IdentifyAndReadStatusReply : Prop := ∀ (h : ReqHead) (page : Byte) (s : State), s.Served h →
  (∃ t, exec (.identify h) s = .next t ∧ s.leaves t requestBlocks ∧ t.banks = s.banks.cancelLoad ∧
    s.answers t h 0x01 .done
      ([Config.familyCode, Config.partCode, 1, b8 s.ident.position.val, b8 s.ident.base,
        b8 (s.ident.base + s.ident.position.val)] ++ be16 32 ++ be16 4 ++ be16 20 ++ be16 512 ++ be16 16 ++
        be16 384 ++ be32 s.clock.time)) ∧
  (∃ t, exec (.readStatus h page) s = .next t ∧ s.leaves t requestBlocks ∧ t.banks = s.banks.cancelLoad ∧
    (page = 0 → s.answers t h 0x02 .done (s.finds h 0x02 [page]).statusPage0) ∧
    (page = 1 → s.answers t h 0x02 .done (s.finds h 0x02 [page]).statusPage1) ∧
    (1 < page.toNat → s.answers t h 0x02 .invalid []))

/-- READ_PORT is answered with the named port's counts, queue lengths, threshold, fairness count, transmission and
silence as they stand when it is taken, INVALID for another selector (R16). READ_STATION is answered with the number of
entries and their addresses for address 0, with the fields of the entry an address names, REFUSED otherwise (R21).
Neither changes anything; an open load is cancelled (R144). The widths of the values are the model's choice (log 14).
Where the port has no place for the reply, none is sent and a FORWARD drop is counted (R6). -/
def Obligations.ReadPortAndReadStationReply : Prop := ∀ (h : ReqHead) (port address : Byte) (s : State), s.Served h →
  (∃ t, exec (.readPort h port) s = .next t ∧ s.leaves t requestBlocks ∧ t.banks = s.banks.cancelLoad ∧
    let u := s.finds h 0x11 [port]
    (∀ p, portOfCode port = some p → s.answers t h 0x11 .done
      (be16 (u.port p).crcRejects ++ be16 (u.port p).lengthRejects ++ be16 (u.port p).forwardDrops ++
        be16 (u.port p).framesSent ++ be16 (u.port p).unknownSources ++ be16 (u.port p).command.length ++
        be16 (u.port p).forward.length ++ [b8 (u.port p).threshold] ++ be16 (u.port p).fairness ++
        [flag (u.port p).tx.isSome, flag (u.port p).silent] ++
        be16 (min (s.clock.time - (u.port p).lastArrival).toNat 65535))) ∧
    (1 < port.toNat → s.answers t h 0x11 .invalid [])) ∧
  (∃ t, exec (.readStation h address) s = .next t ∧ s.leaves t requestBlocks ∧ t.banks = s.banks.cancelLoad ∧
    (address = 0 → s.answers t h 0x1A .done (be16 s.cls.stations.length ++ s.addresses)) ∧
    (∀ e, address ≠ 0 → s.station address = some e → s.answers t h 0x1A .done (s.stationData e)) ∧
    (address ≠ 0 → s.station address = none → s.answers t h 0x1A .refused []))

/-- READ_AXLE with a scope that names an own configured axle is answered with its values, INVALID otherwise (R74).
READ_BOGIE with scope NONE, or BOGIE naming bogie p, is answered with the values of parts 0 to 4; another part or scope
is INVALID (R116, R91, R192). Neither changes anything; an open load is cancelled (R144). The widths and the codes of
the values, of the timers among them, are the model's choice (logs 14, 15 and 16), and that the governing indices are
given as they stand (log 27). Where the port has no place for the reply, none is sent and a FORWARD drop is counted
(R6). -/
def Obligations.ReadAxleAndReadBogieReply : Prop := ∀ (h : ReqHead) (part : Byte) (s : State), s.Served h →
  (∃ t, exec (.readAxle h) s = .next t ∧ s.leaves t requestBlocks ∧ t.banks = s.banks.cancelLoad ∧
    (∀ b i, s.banks.active = some b → h.scopeKind = 1 → h.scopeNumber.toNat = 3 * s.ident.position.val + i.val →
      i.val < b.bogie.n → s.answers t h 0x20 .done (s.axleData b i)) ∧
    (h.scopeKind ≠ 1 ∨ (∀ i : Fin 3, i.val < s.n → h.scopeNumber.toNat ≠ 3 * s.ident.position.val + i.val) →
      s.answers t h 0x20 .invalid [])) ∧
  (∃ t, exec (.readBogie h part) s = .next t ∧ s.leaves t requestBlocks ∧ t.banks = s.banks.cancelLoad ∧
    let u := s.finds h 0x22 [part]
    let own := h.scopeKind = 0 ∨ (h.scopeKind = 2 ∧ h.scopeNumber.toNat = s.ident.position.val)
    (own → part = 0 → s.answers t h 0x22 .done u.bogiePart0) ∧
    (own → part = 1 → s.answers t h 0x22 .done u.bogiePart1) ∧
    (∀ i : Fin 3, own → part.toNat = i.val + 2 → s.answers t h 0x22 .done (s.bogieAxle i)) ∧
    (4 < part.toNat ∨ ¬own → s.answers t h 0x22 .invalid []))

/-- R134: READ_RESTRICTIONS is answered with up to eight entries from the starting number, the limiters and the
governing indices, INVALID for a number outside 1..20; READ_INCIDENTS (R170) with the recorder's working state and
two headers, BUSY while the scan runs, INVALID for a slot above 15. Neither changes anything; an open load is cancelled
(R144). That the headers are those in force (log 20), that 15 stands for no current slot and the codes (log 15), and the
widths (log 14) are the model's choice. Where the port has no place for the reply, none is sent and a FORWARD drop
is counted (R6). -/
def Obligations.ReadTablesReply : Prop := ∀ (h : ReqHead) (start : Byte) (s : State), s.Served h →
  (∃ t, exec (.readRestrictions h start) s = .next t ∧ s.leaves t requestBlocks ∧ t.banks = s.banks.cancelLoad ∧
    let u := s.finds h 0x29 [start]
    (1 ≤ start.toNat ∧ start.toNat ≤ 20 → s.answers t h 0x29 .done
      ([b8 (min 8 (21 - start.toNat)), b8 s.restrict.limElectric, b8 s.restrict.limAir,
        b8 u.restrict.govElectric, b8 u.restrict.govAir] ++
        ((u.restrict.entries.toList.drop (start.toNat - 1)).take 8).flatMap Entry.summary)) ∧
    (start.toNat = 0 ∨ 20 < start.toNat → s.answers t h 0x29 .invalid [])) ∧
  (∃ t, exec (.readIncidents h start) s = .next t ∧ s.leaves t requestBlocks ∧ t.banks = s.banks.cancelLoad ∧
    let u := s.finds h 0x39 [start]
    (s.hist.scan ≠ none → s.answers t h 0x39 .busy []) ∧
    (s.hist.scan = none → 15 < start.toNat → s.answers t h 0x39 .invalid []) ∧
    (∀ k : Fin 16, s.hist.scan = none → start.toNat = k.val →
      s.answers t h 0x39 .done (u.recorderData ++
        ((allSlots.drop k.val).take 2).flatMap (fun j => (u.slot j).header.summary))))

/-- R33: SET_MATCH writes the entry whole, or is refused INVALID and writes nothing. Where the port has no place for the
reply, none is sent and a FORWARD drop is counted (R6). -/
def Obligations.SetMatchWritesTheEntry : Prop :=
  ∀ (h : ReqHead) (entry enable kind source offset value mask : Byte) (s : State), s.Served h →
  ∃ t, exec (.setMatch h entry enable kind source offset value mask) s = .next t ∧
    s.leaves t [.silence, .staged, .matchers] ∧
    (∀ k : Fin 4, entry.toNat = k.val → source.toNat ≤ 126 → offset.toNat ≤ 55 →
      t.cls.matchers = s.cls.matchers.set k ⟨decide (enable ≠ 0), kind, source, offset.toNat, value, mask⟩ ∧
        s.answers t h 0x1B .done []) ∧
    (3 < entry.toNat ∨ 126 < source.toNat ∨ 55 < offset.toNat →
      t.cls.matchers = s.cls.matchers ∧ s.answers t h 0x1B .invalid [])

/-- R15: SET_PORT writes the threshold of the port it names, 0 leaving it and a value above 16 giving 16, and
clears its four counts of R12 and its unknown-source count where the flag is set; the other counts stay, but that the
forwarding of the request itself may be dropped on the other port, and that the reply, where the port it goes to has no
place for it, is counted as a FORWARD drop there after the clearing (R6). Another selector is refused INVALID. -/
def Obligations.SetPortWritesThePort : Prop := ∀ (h : ReqHead) (port threshold clear : Byte) (s : State), s.Served h →
  ∃ t, exec (.setPort h port threshold clear) s = .next t ∧
    s.leaves t [.silence, .staged, .thresholds, .counts, .drops] ∧
    let u := s.finds h 0x10 [port, threshold, clear]
    (u.port h.port).forwardDrops = (s.port h.port).forwardDrops ∧
    ((u.port (otherPort h.port)).forwardDrops = (s.port (otherPort h.port)).forwardDrops ∨
      (u.port (otherPort h.port)).forwardDrops = min ((s.port (otherPort h.port)).forwardDrops + 1) 65535) ∧
    let dropped := fun (q : PortId) (n : Nat) => if q = h.port ∧ 16 ≤ (s.port q).forward.length then min (n + 1) 65535 else n
    (∀ p, portOfCode port = some p → (s.Room h → t.replies h 0x10 .done []) ∧
      (s.Full h → (t.port h.port).forward = (s.port h.port).forward) ∧
      (t.port p).threshold = (if threshold = 0 then (s.port p).threshold else min threshold.toNat 16) ∧
      (clear ≠ 0 → (t.port p).crcRejects = 0 ∧ (t.port p).lengthRejects = 0 ∧ (t.port p).framesSent = 0 ∧
        (t.port p).unknownSources = 0 ∧ (s.Room h ∨ s.Full h → (t.port p).forwardDrops = dropped p 0)) ∧
      (clear = 0 → (t.port p).crcRejects = (s.port p).crcRejects ∧
        (t.port p).lengthRejects = (s.port p).lengthRejects ∧ (t.port p).framesSent = (s.port p).framesSent ∧
        (t.port p).unknownSources = (s.port p).unknownSources ∧
        (s.Room h ∨ s.Full h → (t.port p).forwardDrops = dropped p (u.port p).forwardDrops)) ∧
      ∀ q, q ≠ p → (t.port q).threshold = (s.port q).threshold ∧ (t.port q).crcRejects = (s.port q).crcRejects ∧
        (t.port q).lengthRejects = (s.port q).lengthRejects ∧ (t.port q).framesSent = (s.port q).framesSent ∧
        (t.port q).unknownSources = (s.port q).unknownSources ∧
        (s.Room h ∨ s.Full h → (t.port q).forwardDrops = dropped q (u.port q).forwardDrops)) ∧
    (1 < port.toNat → s.leaves t requestBlocks ∧ s.answers t h 0x10 .invalid [])

/-- R20, R19: SET_STATION refuses an entry that R19 does not allow (step 1), BUSY during an application in ACTIVE (step
2), an entry that breaks a binding rule (step 3) and a 33rd entry (step 4), in that order, and changes nothing of the
table; otherwise the entry is written, NEW. R19 allows an address of 1..126 that is not the device's own, a role, a
side, and a bound list that the role asks for: 1 to 4 global axles 0..11, no axle twice, for an AXLE_UNIT, one for a
CONVERTER, one bogie 0..3 for a VALVE, none for a CAB, a RADAR and a PEER. The blocks that depend on the old entry of
the address and on the new one follow (R22): the samples of their axles are STALE, an own axle UNSENSED in ACTIVE mode
(R69), a CAB entry brings START_HOLD with levels 0 (R37), a CONVERTER or VALVE entry has the output of its target
offered again in ACTIVE mode, the achieved effort 0 (R96, R113). The order of the axles (logs 36 and 53) and that the
status of a converter's axle is kept (log 32) are the model's choices. Where the port has no place for the reply, none
is sent and a FORWARD drop is counted (R6). -/
def Obligations.SetStationWritesTheEntry : Prop :=
  ∀ (h : ReqHead) (x : StationParams) (s : State), s.Served h →
  ∃ t, exec (.setStation h x.address x.role x.side x.count x.b0 x.b1 x.b2 x.b3 x.fresh x.conceal) s = .next t ∧
    let list := ([x.b0, x.b1, x.b2, x.b3].take x.count.toNat).map (fun b => b.toNat)
    let allowed := 1 ≤ x.address.toNat ∧ x.address.toNat ≤ 126 ∧ x.address ≠ s.nodeByte ∧ x.side.toNat ≤ 1 ∧
      ((x.role = 1 ∧ 1 ≤ x.count.toNat ∧ x.count.toNat ≤ 4 ∧ (∀ b ∈ list, b ≤ 11) ∧ list.Nodup) ∨
        (x.role = 3 ∧ x.count = 1 ∧ x.b0.toNat ≤ 11) ∨ (x.role = 4 ∧ x.count = 1 ∧ x.b0.toNat ≤ 3) ∨
        ((x.role = 0 ∨ x.role = 2 ∨ x.role = 5) ∧ x.count = 0))
    (allowed ↔ ∃ e, x.entry s.nodeByte s.clock.time = some e) ∧
    (x.entry s.nodeByte s.clock.time = none → s.answers t h 0x18 .invalid [] ∧ s.leaves t requestBlocks) ∧
    ∀ e, x.entry s.nodeByte s.clock.time = some e →
      (s.breaksBinding e = true ↔ ∃ y ∈ s.cls.stations, y.address ≠ e.address ∧ y.role = e.role ∧
        (y.role = .cab ∨ y.role = .radar ∨ (y.role ≠ .peer ∧ ∃ k ∈ e.bound, k ∈ y.bound))) ∧
      (s.demand.mode = .active ∧ s.demand.app ≠ .released → s.answers t h 0x18 .busy [] ∧ s.leaves t requestBlocks) ∧
      (¬(s.demand.mode = .active ∧ s.demand.app ≠ .released) →
        (s.breaksBinding e = true → s.answers t h 0x18 .invalid [] ∧ s.leaves t requestBlocks) ∧
        (s.breaksBinding e = false → s.station x.address = none → 32 ≤ s.cls.stations.length →
          s.answers t h 0x18 .refused [] ∧ s.leaves t requestBlocks) ∧
        (s.breaksBinding e = false → (s.station x.address ≠ none ∨ s.cls.stations.length < 32) →
          s.answers t h 0x18 .done [] ∧
            s.leaves t
              [.silence, .staged, .stations, .samples, .demand, .application, .slide, .sequencer, .efforts] ∧
            t.cls.stations = replaceStation e s.cls.stations ∧ t.station x.address = some e ∧
            (∀ a, a ≠ x.address → t.station a = s.station a) ∧
            s.Edited t ((s.station x.address).toList ++ [e]) ∧
            e.address = x.address ∧ e.role.code = x.role ∧ portCode e.side = x.side ∧
            e.bound = list ∧ e.freshLimit = max 10 (min x.fresh.toNat 5000) ∧
            e.concealLimit = min x.conceal.toNat 10000 ∧ e.state = .new ∧ e.lastSeq = none ∧
            e.lastAccept = s.clock.time ∧ e.freshTimer = none ∧ e.concealTimer = none))

/-- R21: CLEAR_STATION is refused BUSY during an application in ACTIVE, REFUSED for an address that names no entry;
otherwise the entry is removed, and the blocks that depend on it follow (R22): the samples of its axles are STALE, an
own axle UNSENSED in ACTIVE mode (R69), a CAB entry's removal brings START_HOLD with levels 0 (R37), a CONVERTER or
VALVE entry's leaves its target with no last-sent content and no refresh timer, the achieved effort 0 (R96, R113). The
order of the axles (logs 36 and 53) and that the status of a converter's axle is kept (log 32) are the model's choices.
Where the port has no place for the reply, none is sent and a FORWARD drop is counted (R6). -/
def Obligations.ClearStationRemovesTheEntry : Prop := ∀ (h : ReqHead) (address : Byte) (s : State), s.Served h →
  ∃ t, exec (.clearStation h address) s = .next t ∧
    (s.demand.mode = .active ∧ s.demand.app ≠ .released → s.answers t h 0x19 .busy [] ∧ s.leaves t requestBlocks) ∧
    (¬(s.demand.mode = .active ∧ s.demand.app ≠ .released) →
      (s.station address = none → s.answers t h 0x19 .refused [] ∧ s.leaves t requestBlocks) ∧
      (∀ e, s.station address = some e → s.Edited t [e]) ∧
      (s.station address ≠ none → s.answers t h 0x19 .done [] ∧
        t.cls.stations = s.cls.stations.filter (fun e => decide (e.address ≠ address)) ∧
        t.station address = none ∧
        s.leaves t [.silence, .staged, .stations, .samples, .demand, .application, .slide, .sequencer, .efforts]))

/-- R73, R67: RESTORE_AXLE is refused INVALID without the scope of an own configured axle, BUSY during an application,
REFUSED for an axle that is not ISOLATED; otherwise the axle returns to CLEAR with slide factor 1000, or, with a STALE
sample in ACTIVE, on to UNSENSED with slide factor 0; the other axles stay as they were. Each change writes its AXLE
record (R71); that both records of a STALE axle precede the one hand-over of the aggregates is the model's choice (log
55). Where the port has no place for the reply, none is sent and a FORWARD drop is counted (R6). -/
def Obligations.RestoreAxleReturnsIt : Prop := ∀ (h : ReqHead) (s : State), s.Served h →
  ∃ t, exec (.restoreAxle h) s = .next t ∧ s.leaves t [.silence, .staged, .slide, .sequencer] ∧
    (s.scopeAxle h = none → s.answers t h 0x21 .invalid [] ∧ t.slide = s.slide) ∧
    ∀ i, s.scopeAxle h = some i →
      (s.demand.app ≠ .released → s.answers t h 0x21 .busy [] ∧ t.slide = s.slide) ∧
      (s.demand.app = .released → (s.axle i).state ≠ .isolated → s.answers t h 0x21 .refused [] ∧ t.slide = s.slide) ∧
      (s.demand.app = .released → (s.axle i).state = .isolated → s.answers t h 0x21 .done [] ∧
        (¬((s.ownSample i).state = .stale ∧ s.demand.mode = .active) →
          (t.axle i).state = .clear ∧ (t.axle i).factor = 1000) ∧
        ((s.ownSample i).state = .stale ∧ s.demand.mode = .active →
          (t.axle i).state = .unsensed ∧ (t.axle i).factor = 0) ∧
        (s.RingLaw → s.logs t (axleRow s i .isolated .clear (s.ownSample i).lastGood (s.axle i).lastCreep 1000 ::
          if (s.ownSample i).state = .stale ∧ s.demand.mode = .active
            then [axleRow s i .clear .unsensed (s.ownSample i).lastGood (s.axle i).lastCreep 0] else [])) ∧
        (t.axle i).suspect = 0 ∧ (t.axle i).episodeTime = 0 ∧ ∀ j, j ≠ i → t.axle j = s.axle j)

/-- R130, R119: SET_RESTRICTION writes each selected field of the entry, priority clamped to 15 and action to 1000,
keeps the others, and answers DONE with the entry; an entry number outside 1..20 or an unlisted selected path or edge is
refused INVALID. The entry's pending state is then as R122 computes it, and a change of it is an edge of the entry as
written: where it is enabled, it sends its trigger, writes the PENDING record, and latches with a notice where its notice
edge names the edge (R123, R124); entries 14, 17 and 19 may be handed on again in the same event. The widths in the reply
(log 14), and that it shows nothing of the evaluation after it (log 8), are the model's choice. Where the port has
no place for the reply, none is sent and a FORWARD drop is counted (R6). -/
def Obligations.SetRestrictionWritesSelectedFields : Prop :=
  ∀ (h : ReqHead) (entry select enable invert priority path : Byte) (action : BitVec 16)
    (trigger edge force : Byte) (s : State), s.Served h →
  ∃ t, exec (.setRestriction h entry select enable invert priority path action trigger edge force) s = .next t ∧
    s.leaves t [.silence, .staged, .settings] ∧
    let u := s.finds h 0x28 ([entry, select, enable, invert, priority, path] ++ be16 action.toNat ++ [trigger, edge, force])
    let again : List (Fin 20) := [13, 16, 18]
    let bad := (select.getLsbD 3 = true ∧ 2 < path.toNat) ∨ (select.getLsbD 6 = true ∧ 3 < edge.toNat)
    (entry.toNat = 0 ∨ 20 < entry.toNat ∨ bad → s.answers t h 0x28 .invalid [] ∧ s.leaves t requestBlocks) ∧
    (∀ i : Fin 20, entry.toNat = i.val + 1 → ¬bad →
      (∃ c p l ge ga, s.answers t h 0x28 .done
        ([flag (t.entry i).enable, flag (t.entry i).invert, b8 (t.entry i).priority, (t.entry i).path.code] ++
          be16 (t.entry i).action ++ [flag (t.entry i).trigger, (t.entry i).edge.code, flag (t.entry i).force, flag c,
          flag p, flag l, b8 ge, b8 ga]) ∧
        p = ((c != (t.entry i).invert) || (t.entry i).force) ∧
        (i ∉ again → c = (t.entry i).condition ∧ p = (t.entry i).pending ∧ l = (t.entry i).latched) ∧
        ((∀ k ∈ again, (t.entry k).path = .report) → ge = t.restrict.govElectric ∧ ga = t.restrict.govAir)) ∧
      (i ∉ again → (t.entry i).condition = (u.entry i).condition ∧
        (t.entry i).pending = (((t.entry i).condition != (t.entry i).invert) || (t.entry i).force) ∧
        ((t.entry i).latched = true ↔ (u.entry i).latched = true ∨ ((t.entry i).enable = true ∧
          (t.entry i).pending ≠ (u.entry i).pending ∧ (t.entry i).edge.names (t.entry i).pending)) ∧
        (s.RingLaw → u.TakesEdge t i (t.entry i))) ∧
      (t.entry i).enable = (if select.getLsbD 0 then decide (enable ≠ 0) else (s.entry i).enable) ∧
      (t.entry i).invert = (if select.getLsbD 1 then decide (invert ≠ 0) else (s.entry i).invert) ∧
      (t.entry i).priority = (if select.getLsbD 2 then min priority.toNat 15 else (s.entry i).priority) ∧
      (t.entry i).path.code = (if select.getLsbD 3 then path else (s.entry i).path.code) ∧
      (t.entry i).action = (if select.getLsbD 4 then min action.toNat 1000 else (s.entry i).action) ∧
      (t.entry i).trigger = (if select.getLsbD 5 then decide (trigger ≠ 0) else (s.entry i).trigger) ∧
      (t.entry i).edge.code = (if select.getLsbD 6 then edge else (s.entry i).edge.code) ∧
      (t.entry i).force = (if select.getLsbD 7 then decide (force ≠ 0) else (s.entry i).force) ∧
      ∀ j, j ≠ i → (t.entry j).enable = (s.entry j).enable ∧ (t.entry j).invert = (s.entry j).invert ∧
        (t.entry j).priority = (s.entry j).priority ∧ (t.entry j).path = (s.entry j).path ∧
        (t.entry j).action = (s.entry j).action ∧ (t.entry j).trigger = (s.entry j).trigger ∧
        (t.entry j).edge = (s.entry j).edge ∧ (t.entry j).force = (s.entry j).force)

/-- ACK_RESTRICTIONS with a mask of entries 1..20 alone clears the latches it names, leaves the others, and is
answered DONE with the latched states of all twenty entries after the clearing; another mask is refused INVALID. No
setting changes (R125); entries 14, 17 and 19 may be handed on, and latched, again in the same event. SET_LIMITER writes
the limiter of the ELECTRIC or AIR path, at most 15, leaves the other, and is answered DONE with both and the governing
indices; another selector is refused INVALID (R129). The widths in the replies are the model's choice (log 14).
Where the port has no place for the reply, none is sent and a FORWARD drop is counted (R6). -/
def Obligations.AcknowledgementsAndLimitersAreTaken : Prop :=
  ∀ (h : ReqHead) (mask : BitVec 32) (path value : Byte) (s : State), s.Served h →
  let again : List (Fin 20) := [13, 16, 18]
  (∃ t, exec (.ackRestrictions h mask) s = .next t ∧ s.leaves t requestBlocks ∧
    let u := s.finds h 0x2A (be32 mask)
    (mask.getLsbD 0 = true ∨ 2 ^ 21 ≤ mask.toNat → s.answers t h 0x2A .invalid []) ∧
    (mask.getLsbD 0 = false → mask.toNat < 2 ^ 21 → ∃ set : BitVec 32,
      s.answers t h 0x2A .done (be32 set) ∧ set.toNat < 2 ^ 21 ∧ set.getLsbD 0 = false ∧
      ∀ i : Fin 20, set.getLsbD (i.val + 1) = ((u.entry i).latched && !mask.getLsbD (i.val + 1)) ∧
        (set.getLsbD (i.val + 1) = true → (t.entry i).latched = true) ∧
        (i ∉ again → (t.entry i).latched = set.getLsbD (i.val + 1)))) ∧
  (∃ t, exec (.setLimiter h path value) s = .next t ∧ s.leaves t [.silence, .staged, .limiters] ∧
    let indices := fun (t : State) (e a : Nat) => (∀ k ∈ again, (t.entry k).path = .report) →
      e = t.restrict.govElectric ∧ a = t.restrict.govAir
    (path = 0 → t.restrict.limElectric = min value.toNat 15 ∧ t.restrict.limAir = s.restrict.limAir ∧
      ∃ e a, s.answers t h 0x2B .done [b8 (min value.toNat 15), b8 s.restrict.limAir, b8 e, b8 a] ∧ indices t e a) ∧
    (path = 1 → t.restrict.limElectric = s.restrict.limElectric ∧ t.restrict.limAir = min value.toNat 15 ∧
      ∃ e a, s.answers t h 0x2B .done [b8 s.restrict.limElectric, b8 (min value.toNat 15), b8 e, b8 a] ∧ indices t e a) ∧
    (1 < path.toNat → t.restrict.limElectric = s.restrict.limElectric ∧ t.restrict.limAir = s.restrict.limAir ∧
      s.answers t h 0x2B .invalid []))

/-- R50, R182: SET_MODE in TRANSPARENT, or to another value than ACTIVE or ISOLATED, is refused INVALID; to ISOLATED in
ACTIVE it is taken when RELEASED with Vref below V_min, else refused BUSY; to ACTIVE in ISOLATED it is taken; to the
mode in force it is DONE and changes nothing. Its reply carries mode, application state, Vref and V_min. A change writes
a MODE record and sends a MODE notice (R51, R52). On leaving ACTIVE every output is 0 with nothing last sent, no refresh
and no command queued, no handover runs, the sequencer rests in NORMAL with a setpoint of 0 and no timer,
CYLINDER_MISMATCH is false, and every own axle is CLEAR, its change an AXLE record (R51); on the entry each own
configured axle with a STALE sample is UNSENSED, with its AXLE record, and the outputs of bound targets are offered by
an evaluation (R52). That the AXLE records come before the MODE record is the model's choice (logs 39 and 45). Where the
port has no place for the reply, none is sent and a FORWARD drop is counted (R6). -/
def Obligations.SetModeChangesTheMode : Prop := ∀ (h : ReqHead) (target : Byte) (s : State), s.Served h →
  ∃ t, exec (.setMode h target) s = .next t ∧
    let values := fun (m : Mode) => [m.code, s.demand.app.code] ++ be16 s.slide.vref ++
      be16 (match s.banks.active with | none => 0 | some b => b.supervision.vMin)
    let own : List (Fin 3) := [0, 1, 2]
    let moved := fun (i : Fin 3) (new : SlideState) (factor : Nat) =>
      axleRow s i (s.axle i).state new (s.ownSample i).lastGood (s.axle i).lastCreep factor
    let lost := fun (i : Fin 3) => i.val < s.n ∧ (s.ownSample i).state = .stale ∧ (s.axle i).state ≠ .isolated ∧
      (s.axle i).state ≠ .unsensed
    let told := fun (m : Mode) => s.mgmt.noticeAddress ≠ 0 → s.mgmt.enables.mode = true →
      t.Notifies ⟨.mode, 0, m.code.setWidth 32, s.clock.time⟩
    (s.demand.mode = .transparent ∨ (target ≠ 1 ∧ target ≠ 2) →
      s.answers t h 0x03 .invalid (values s.demand.mode) ∧ s.leaves t requestBlocks) ∧
    (target = 1 → s.demand.mode = .active → s.answers t h 0x03 .done (values .active) ∧ s.leaves t requestBlocks) ∧
    (target = 1 → s.demand.mode = .isolated → s.answers t h 0x03 .done (values .active) ∧
      t.demand = { s.demand with mode := .active } ∧ s.leaves t [.silence, .staged, .application, .slide] ∧
      (∀ i, (lost i → (t.axle i).state = .unsensed ∧ (t.axle i).factor = 0 ∧ (t.axle i).suspect = 0) ∧
        (¬lost i → t.axle i = s.axle i)) ∧
      (s.RingLaw → s.logs t ((own.filter (fun i => lost i)).map (fun i => moved i .unsensed 0) ++
        [modeRow s 1 2 1 .active s.demand.app s.demand.appNumber 0])) ∧ told .active ∧
      (∀ b, s.banks.active = some b → s.SendLaw →
        (∀ i, s.converterOf i ≠ none → (t.out i).lastSent = some (t.out i).content ∧ (t.out i).refresh ≠ none) ∧
        (s.valve ≠ none → t.blend.pressure.lastSent = some t.blend.pressure.content ∧
          t.blend.pressure.refresh ≠ none))) ∧
    (target = 2 → s.demand.mode = .isolated → s.answers t h 0x03 .done (values .isolated) ∧ s.leaves t requestBlocks) ∧
    (target = 2 → s.demand.mode = .active → ¬(s.demand.app = .released ∧ s.slide.vref < s.vMin) →
      s.answers t h 0x03 .busy (values .active) ∧ s.leaves t requestBlocks) ∧
    (target = 2 → s.demand.mode = .active → s.demand.app = .released → s.slide.vref < s.vMin →
      s.answers t h 0x03 .done (values .isolated) ∧ t.demand = { s.demand with mode := .isolated } ∧
        (∀ i, (t.axle i).state = .clear ∧ (t.axle i).factor = 1000 ∧ (t.axle i).suspect = 0 ∧
          (t.axle i).allowance = none) ∧
        (s.RingLaw → s.logs t ((own.filter (fun i => (s.axle i).state ≠ .clear)).map (fun i => moved i .clear 1000) ++
          [modeRow s 1 1 2 .isolated .released s.demand.appNumber 0])) ∧ told .isolated ∧
        (∀ p, (t.port p).command = []) ∧
        (∀ i, (t.out i).content = ⟨0, false⟩ ∧ (t.out i).pendingEffort = none ∧ (t.out i).lastSent = none ∧
          (t.out i).refresh = none) ∧
        t.blend.pressure.content.pressure = 0 ∧ t.blend.pressure.lastSent = none ∧ t.blend.pressure.refresh = none ∧
        t.blend.handover = none ∧ t.blend.prev = none ∧
        t.air.state = .normal ∧ t.air.pSet = 0 ∧ t.air.dumpTimer = none ∧ t.air.holdTimer = none ∧
        t.air.stepTimer = none ∧ t.air.mismatch = false ∧ t.air.mismatchTimer = none ∧
        s.leaves t [.silence, .staged, .application, .slide, .sequencer, .pressure, .handover])

/-- R183: SET_NOTICE writes the notice address, the enable set and, as the notice side, the port it came on; an
address above 126, the device's own, or an unknown enable bit is refused INVALID. The reply DONE carries them and the
number of notices that stay pending: those of an enabled kind, none with address 0. The width of the enable set in the
reply is the model's choice (log 14). Where the port has no place for the reply, none is sent and a FORWARD drop is
counted (R6). -/
def Obligations.SetNoticeWritesTheSettings : Prop :=
  ∀ (h : ReqHead) (address enables : Byte) (s : State), s.Served h →
  ∃ t, exec (.setNotice h address enables) s = .next t ∧ s.leaves t [.silence, .staged, .mgmt] ∧
    t.mgmt.malformed = s.mgmt.malformed ∧
    (126 < address.toNat ∨ address = s.nodeByte ∨ 15 < enables.toNat →
      s.answers t h 0x04 .invalid [] ∧ s.leaves t requestBlocks) ∧
    (address.toNat ≤ 126 → address ≠ s.nodeByte → enables.toNat ≤ 15 →
      t.mgmt.noticeAddress = address ∧ t.mgmt.noticeSide = h.port ∧
      t.mgmt.enables = ⟨enables.getLsbD 0, enables.getLsbD 1, enables.getLsbD 2, enables.getLsbD 3⟩ ∧
      s.answers t h 0x04 .done ([address, portCode h.port, enables] ++ be16 (if address = 0 then 0 else
        ((s.finds h 0x04 [address, enables]).mgmt.notices.filter (fun x => t.mgmt.enables.on x.kind)).length)))

/-- R187: RESTART is refused BUSY unless RELEASED; otherwise the demand unit is in START_HOLD with levels 0 and the next
application open, every entry of the station table is NEW with its configuration kept, the samples are STALE, the mode
is ACTIVE when the active bank is full and TRANSPARENT when it is empty, and both banks, the match entries, the
recorder's configuration and the notice settings are kept. The slide records are CLEAR, in ACTIVE on to UNSENSED for
want of a sample; the sequencer, supervision and the outputs are as at reset but for what the first evaluation forms;
the cursor is NONE, an incident in POST is cut and commits; the queues are emptied before the reply joins, and the
counts are 0, FORWARD drops too; the silence timers run from now. The restriction entries take the conditions of the
reset owners from a clear table: each is pending by its condition and kept invert, latched where that raised it and its
notice edge names the raise, entry 6 taking a second edge at the entry to ACTIVE (R135); entries 17 and 19, which
settling hands over again, are left to the laws. The pending notices of before are gone, and the MODE records of the
application and of the mode are written (R44, R52, R187). That a slide record keeps its period start is the model's
choice (log 47). Where the port has no place for a BUSY reply, none is sent and a FORWARD drop is counted (R6). -/
def Obligations.RestartResetsWorkingState : Prop := ∀ (h : ReqHead) (s : State), s.Served h →
  ∃ t, exec (.restart h) s = .next t ∧
    (s.demand.app ≠ .released → s.answers t h 0x05 .busy [] ∧ s.leaves t requestBlocks) ∧
    (s.demand.app = .released →
      let m : Mode := if s.banks.active.isSome then .active else .transparent
      t.demand = ⟨0, 0, .startHold, false, .applied, s.demand.appNumber + 1, none, m⟩ ∧
      t.replies h 0x05 .done (be32 (s.demand.appNumber + 1) ++ [m.code]) ∧
      t.cls.stations = s.cls.stations.map (fun e => { e with
        lastSeq := none, lastAccept := s.clock.time, state := .new, lastStatus := .ok, gapCount := 0, staleCount := 0
        rejectCount := 0, freshTimer := none, concealTimer := none }) ∧
      t.cls.samples = Vec.fill 12 AxleSample.reset ∧ t.cls.matchers = s.cls.matchers ∧ t.cls.radarDoubtful = 0 ∧
      t.banks = { s.banks.cancelLoad with pendingAdoption := false } ∧
      t.mgmt.malformed = 0 ∧ t.mgmt.noticeAddress = s.mgmt.noticeAddress ∧
      t.mgmt.noticeSide = s.mgmt.noticeSide ∧ t.mgmt.enables = s.mgmt.enables ∧
      (∀ i, (t.entry i).force = false ∧ (t.entry i).enable = (s.entry i).enable ∧
        (t.entry i).invert = (s.entry i).invert ∧ (t.entry i).priority = (s.entry i).priority ∧
        (t.entry i).path = (s.entry i).path ∧ (t.entry i).action = (s.entry i).action ∧
        (t.entry i).trigger = (s.entry i).trigger ∧ (t.entry i).edge = (s.entry i).edge) ∧
      (∀ p, (t.port p).crcRejects = 0 ∧ (t.port p).lengthRejects = 0 ∧ (t.port p).framesSent = 0 ∧
        (t.port p).unknownSources = 0 ∧ (t.port p).forwardDrops = 0 ∧ (t.port p).silent = false ∧
        (t.port p).lastArrival = s.clock.time) ∧
      (∀ p, (s.port p).tx ≠ none → (t.port p).fairness = 0 ∧
        (p = h.port → (t.port p).forward.head? = some (.originated (replyFrame h 0x05
          ⟨.done, be32 (s.demand.appNumber + 1) ++ [m.code]⟩))) ∧
        (p ≠ h.port → ∀ q ∈ (t.port p).forward, ∃ o, q = .originated o ∧ o.kind = kindNotice) ∧
        (∀ c ∈ (t.port p).command, m = .active ∧
          (c.target = 3 → ∃ e, s.valve = some e ∧ c.frame = t.pressureFrame e) ∧
          ∀ i : Fin 3, c.target = i.castSucc → ∃ e, s.converterOf i = some e ∧ c.frame = t.effortFrame i e)) ∧
      (let unsensed := m = .active ∧ 0 < s.n
       let radar := ∃ e, s.stationOfRole .radar = some e
       let names := fun (i : Fin 20) => (s.entry i).enable = true ∧
         ((s.entry i).edge = .raise ∨ (s.entry i).edge = .both)
       (∀ i ∈ ([0, 1, 2, 6, 7, 9, 10, 12, 13, 14, 15, 17, 19] : List (Fin 20)), (t.entry i).condition = false) ∧
       (t.entry 3).condition = s.slide.refLost ∧ ((t.entry 4).condition = true ↔ radar) ∧
       ((t.entry 5).condition = true ↔ unsensed) ∧ ((t.entry 8).condition = true ↔ 0 < s.n) ∧
       (t.entry 11).condition = s.banks.active.isSome ∧
       (∀ i, i ≠ 16 → i ≠ 18 → (t.entry i).pending = ((t.entry i).condition != (s.entry i).invert)) ∧
       (∀ i, i ≠ 16 → i ≠ 18 → i ≠ 5 → ((t.entry i).latched = true ↔ (t.entry i).pending = true ∧ names i)) ∧
       ((t.entry 5).latched = true ↔ ((t.entry 5).pending = true ∧ names 5) ∨
         (unsensed ∧ (s.entry 5).invert = true ∧ (s.entry 5).enable = true ∧ (s.entry 5).edge ≠ .none))) ∧
      (∀ x ∈ t.mgmt.notices, x.time = s.clock.time) ∧
      (m = .active → s.demand.mode ≠ .active → s.mgmt.noticeAddress ≠ 0 → s.mgmt.enables.mode = true →
        t.Notifies ⟨.mode, 0, 1, s.clock.time⟩) ∧
      (s.RingLaw → s.logs t (modeRow s 0 0 1 s.demand.mode .applied (s.demand.appNumber + 1) 0 ::
        if m = .active then [modeRow s 1 s.demand.mode.code 1 .active .applied (s.demand.appNumber + 1) 0] else [])) ∧
      (∀ p, (t.port p).silenceTimer = s.banks.active.map (fun b => ⟨s.clock.time, b.supervision.tPortSilent⟩)) ∧
      t.slide = { s.slide with axles := t.slide.axles } ∧
      (∀ i : Fin 3, t.axle i = { s.axle i with
        state := if m = .active ∧ i.val < s.n then .unsensed else .clear
        factor := if m = .active ∧ i.val < s.n then 0 else 1000
        suspect := 0, episodeTime := 0, allowance := none }) ∧
      t.air = { Air.reset with pSet := t.air.pSet } ∧
      (m = .transparent → t.air.pSet = 0 ∧ t.blend = Blend.reset) ∧
      (∀ i, (t.out i).achieved = 0 ∧ (t.out i).status = .ok) ∧
      (t.blend.handover = none ∨
        t.blend.handover = s.banks.active.map (fun b => ⟨s.clock.time, b.supervision.tLead⟩)) ∧
      t.hist.cursor = none ∧
      (∀ i, (s.finds h 0x05 []).hist.capture = .post → (s.finds h 0x05 []).hist.current = some i →
        ∃ j, t.hist.current = some j ∧ j.number = i.number ∧ j.postCut = true ∧ t.hist.capture = .committing) ∧
      s.leaves t [.silence, .staged, .counts, .drops, .stations, .samples, .radarDoubtful, .demand, .application,
        .slide, .sequencer, .pressure, .handover, .efforts, .settings, .cursor, .mgmt])

/-- R142, R143: a LOAD_SEGMENT of an unlisted table or segment, or of another length than its layout, is refused
INVALID. Segment 0 starts the table's load with its clamped values; segment 1 completes the open load of its table and
is answered SEQUENCE where there is none. A well-formed segment withdraws a pending adoption. The active bank does not
change. The codes of the load states in the reply (log 15), and that a segment of the wrong length that continues the
open load leaves it open (log 41), and that the scale and the count of a timing set are two fields of the clamp count
(log 56), are the model's choice. Where the port has no place for the reply, none is sent and a FORWARD drop is counted
(R6). -/
def Obligations.LoadSegmentFillsTheStagedTable : Prop :=
  ∀ (h : ReqHead) (selector : Byte) (contents : List Byte) (s : State), s.Served h →
  ∃ t, exec (.loadSegment h selector contents) s = .next t ∧ s.leaves t [.silence, .staged] ∧
    let segment := selector.toNat % 16
    let b := if loadContinues selector s then s.banks else s.banks.cancelLoad
    (3 < selector.toNat / 16 → t.banks = b ∧ s.answers t h 0x30 .invalid []) ∧
    ∀ table, selectedTable selector = some table →
      (table.segments ≤ segment ∨ contents.length ≠ table.segmentBytes segment →
        t.banks = b ∧ s.answers t h 0x30 .invalid []) ∧
      (segment < table.segments → contents.length = table.segmentBytes segment →
        t.banks.pendingAdoption = false ∧
        (segment = 0 →
          t.banks.staged = (b.staged.clear table).write table 0 (table.stored 0 contents) (radarFlag contents) ∧
          t.banks.states = b.states.set table (if table.segments = 1 then .loaded else .loading) ∧
          t.banks.openLoad = (if table.segments = 1 then none else some table) ∧
          s.answers t h 0x30 .done ([table.code, 0, if table.segments = 1 then 2 else 1,
            if table.segments = 1 then 0xFF else 1] ++ be16 (table.clamped 0 contents) ++ [flag b.pendingAdoption])) ∧
        (segment = 1 → s.banks.openLoad = some table →
          t.banks.staged = s.banks.staged.write table 1 (table.stored 1 contents) (radarFlag contents) ∧
          t.banks.states = s.banks.states.set table .loaded ∧ t.banks.openLoad = none ∧
          s.answers t h 0x30 .done ([table.code, 1, 2, 0xFF] ++ be16 (table.clamped 1 contents) ++
            [flag s.banks.pendingAdoption])) ∧
        (segment = 1 → s.banks.openLoad ≠ some table →
          t.banks.staged = b.staged ∧ t.banks.states = b.states ∧ t.banks.openLoad = none ∧
          s.answers t h 0x30 .sequence ([table.code, 1, (b.states.get table).code, 0xFF] ++ be16 0 ++
            [flag b.pendingAdoption])))

/-- R145, R146: ADOPT is refused INVALID with the first table that is LOADING or INCOMPLETE, or UNTOUCHED while the
active bank is empty; REFUSED with nothing staged; INVALID with the first check that fails. Accepted in RELEASED, it
makes the staged tables active and counts; in APPLIED or RELEASING it is deferred. The failure codes and the bytes 0 for
ADOPTED and 1 for DEFERRED (log 15), and the index 0xFF of a refusal without one and the table that a refusal names (log
42), are the model's choice. Where the port has no place for the reply, none is sent and a FORWARD drop is counted
(R6). -/
def Obligations.AdoptTakesTheStagedTables : Prop := ∀ (h : ReqHead) (s : State), s.Served h →
  ∃ t, exec (.adopt h) s = .next t ∧
    let b := s.banks.cancelLoad
    (∀ table, b.notReady = some table → s.answers t h 0x31 .invalid [0, table.code, 0xFF] ∧ s.leaves t requestBlocks) ∧
    (∀ table, b.notReady = none → b.notComplete = some table →
      s.answers t h 0x31 .invalid [1, table.code, 0xFF] ∧ s.leaves t requestBlocks) ∧
    (b.notReady = none → b.notComplete = none →
      (b.nothingStaged = true → s.answers t h 0x31 .refused [] ∧ s.leaves t requestBlocks) ∧
      (∀ f, b.nothingStaged = false → b.validate = some f →
        s.answers t h 0x31 .invalid [f.failure.code, f.table.code, match f.index with | some k => b8 k | none => 0xFF] ∧
          s.leaves t requestBlocks) ∧
      (b.nothingStaged = false → b.validate = none → s.demand.app ≠ .released →
        s.answers t h 0x31 .done [1] ∧ t.banks = { b with pendingAdoption := true } ∧
          s.leaves t requestBlocks) ∧
      (b.nothingStaged = false → b.validate = none → s.demand.app = .released →
        s.answers t h 0x31 .done ([0] ++ be16 (min (s.banks.adoptions + 1) 65535)) ∧
          t.banks.active = some b.adoptTables ∧ t.banks.adoptions = min (s.banks.adoptions + 1) 65535 ∧
          t.banks.states = ⟨.untouched, .untouched, .untouched, .untouched⟩ ∧ t.banks.pendingAdoption = false ∧
          t.demand = { s.demand with
            mode := if s.demand.mode = .transparent then .active else s.demand.mode } ∧
          s.leaves t [.silence, .staged, .active, .application, .slide, .sequencer]))

/-- R150: DISCARD_STAGED sets the four staged tables to UNTOUCHED, clears them, closes the open load, withdraws a
pending adoption and leaves the active bank; the reply DONE carries the four load states and whether an adoption was
withdrawn. The byte 0 for UNTOUCHED is the model's choice (log 15). Where the port has no place for the reply, none
is sent and a FORWARD drop is counted (R6). -/
def Obligations.DiscardStagedClearsTheStagedBank : Prop := ∀ (h : ReqHead) (s : State), s.Served h →
  ∃ t, exec (.discardStaged h) s = .next t ∧ s.leaves t [.silence, .staged] ∧
    t.banks = { s.banks with
      staged := Tables.cleared, states := ⟨.untouched, .untouched, .untouched, .untouched⟩
      openLoad := none, pendingAdoption := false } ∧
    s.answers t h 0x32 .done [0, 0, 0, 0, flag s.banks.pendingAdoption]

/-- R172: SET_RECORDER is refused BUSY while the scan runs, an incident is open or a trigger is queued; otherwise it
stores P and Q, each at most 256 and together at most 384, the policy and the SLIDING trigger enable, and answers
them. A policy that is not listed is refused INVALID before that, by step 2 of R177, which is the model's reading
(log 35). Where the port has no place for the reply, none is sent and a FORWARD drop is counted (R6). -/
def Obligations.SetRecorderWritesTheConfiguration : Prop :=
  ∀ (h : ReqHead) (pre post : BitVec 16) (policy sliding : Byte) (s : State), s.Served h →
  ∃ t, exec (.setRecorder h pre post policy sliding) s = .next t ∧ s.leaves t [.silence, .staged, .recorder] ∧
    let u := s.finds h 0x38 (be16 pre.toNat ++ be16 post.toNat ++ [policy, sliding])
    let p := min pre.toNat 256
    let q := min (min post.toNat 256) (384 - p)
    (1 < policy.toNat → s.answers t h 0x38 .invalid [] ∧ s.leaves t requestBlocks) ∧
    (policy.toNat ≤ 1 → (s.hist.scan ≠ none ∨ u.hist.capture ≠ .idle ∨ u.hist.queue ≠ []) →
      s.answers t h 0x38 .busy [] ∧ s.leaves t requestBlocks) ∧
    (policy.toNat ≤ 1 → s.hist.scan = none → u.hist.capture = .idle → u.hist.queue = [] →
      s.answers t h 0x38 .done (be16 p ++ be16 q ++ [policy, if sliding = 0 then 0 else 1]) ∧
        t.hist.pre = p ∧ t.hist.post = q ∧ t.hist.policy.code = policy ∧
        t.hist.slidingTrigger = decide (sliding ≠ 0) ∧ t.hist.scan = none)

/-- SET_CURSOR is refused BUSY while the scan runs, INVALID for a slot that holds no incident or an index at or
above its record count; otherwise the cursor is set, unless the same event claims the slot, and the reply carries the
slot's header (R168). READ_RECORDS is refused NO_CURSOR without a cursor; with END it answers no record; otherwise up to two
records from the cursor's index, and the cursor advances by two or stays on the last record with END set (R169). What a
blank cell reads as (log 11), and the slot and index of a reply with no record, the cursor's own (log 48), are the model's
choice. Where the port has no place for the reply, none is sent and a FORWARD drop is counted (R6). -/
def Obligations.CursorsReadTheRecords : Prop := ∀ (h : ReqHead) (slot : Byte) (index : BitVec 16) (s : State),
  s.Served h →
  let claimed := fun (t : State) (k : Fin 16) => t.hist.cursor = none ∧ (t.slot k).header.state = .writing
  (∃ t, exec (.setCursor h slot index) s = .next t ∧ s.leaves t [.silence, .staged, .cursor] ∧
    let u := s.finds h 0x3A ([slot] ++ be16 index.toNat)
    (s.hist.scan ≠ none → s.answers t h 0x3A .busy [] ∧ s.leaves t requestBlocks) ∧
    (s.hist.scan = none → 15 < slot.toNat → s.answers t h 0x3A .invalid [] ∧ s.leaves t requestBlocks) ∧
    ∀ k : Fin 16, s.hist.scan = none → slot.toNat = k.val →
      let header := (u.slot k).header
      (¬((header.state = .complete ∨ header.state = .incomplete) ∧ index.toNat < header.count) →
        s.answers t h 0x3A .invalid [] ∧ s.leaves t requestBlocks) ∧
      ((header.state = .complete ∨ header.state = .incomplete) → index.toNat < header.count →
        s.answers t h 0x3A .done header.bytes ∧
          (t.hist.cursor = some ⟨k, index.toNat, false⟩ ∨ claimed t k))) ∧
  (∃ t, exec (.readRecords h) s = .next t ∧ s.leaves t [.silence, .staged, .cursor] ∧
    let u := s.finds h 0x3B []
    (s.hist.scan ≠ none → s.answers t h 0x3B .busy [] ∧ s.leaves t requestBlocks) ∧
    (s.hist.scan = none → u.hist.cursor = none → s.answers t h 0x3B .noCursor [] ∧ s.leaves t requestBlocks) ∧
    ∀ c, s.hist.scan = none → u.hist.cursor = some c →
      let count := (u.slot c.slot).header.count
      (c.atEnd = true → s.answers t h 0x3B .done ([b8 c.slot.val] ++ be16 c.index ++ [128]) ∧
        (t.hist.cursor = some c ∨ claimed t c.slot)) ∧
      (c.atEnd = false → c.index + 2 < count →
        s.answers t h 0x3B .done ([b8 c.slot.val] ++ be16 c.index ++ [2] ++ u.cellBytes c.slot c.index ++
          u.cellBytes c.slot (c.index + 1)) ∧
        (t.hist.cursor = some ⟨c.slot, c.index + 2, false⟩ ∨ claimed t c.slot)) ∧
      (c.atEnd = false → c.index + 2 = count →
        s.answers t h 0x3B .done ([b8 c.slot.val] ++ be16 c.index ++ [130] ++ u.cellBytes c.slot c.index ++
          u.cellBytes c.slot (c.index + 1)) ∧
        (t.hist.cursor = some ⟨c.slot, c.index + 1, true⟩ ∨ claimed t c.slot)) ∧
      (c.atEnd = false → c.index + 1 = count →
        s.answers t h 0x3B .done ([b8 c.slot.val] ++ be16 c.index ++ [129] ++ u.cellBytes c.slot c.index) ∧
        (t.hist.cursor = some ⟨c.slot, c.index, true⟩ ∨ claimed t c.slot)))

/-- R166: PROTECT and UNPROTECT are refused REFUSED for a slot that holds no incident; otherwise the reply carries
the slot's header with the flag as asked for, the header in force has it, and a change of it is written into the slot's NV
header by an operation of the slot. The reply carries the header as it stands after all that the request hands on (R177): a
slot left unprotected may be claimed at once, in that event, and is then WRITING. The time of that write, up to 2 ms (log
9), and that the reply shows nothing of the evaluation after it (log 8), are the model's choice. Where the port has
no place for the reply, none is sent and a FORWARD drop is counted (R6). -/
def Obligations.ProtectWritesTheFlag : Prop := ∀ (h : ReqHead) (slot : Byte) (on : Bool) (s : State), s.Served h →
  let code : Byte := if on then 0x3C else 0x3D
  ∃ t, exec (if on then .protect h slot else .unprotect h slot) s = .next t ∧
    s.leaves t [.silence, .staged, .headers] ∧
    let u := s.finds h code [slot]
    (s.hist.scan ≠ none → s.answers t h code .busy [] ∧ s.leaves t requestBlocks) ∧
    (s.hist.scan = none → 15 < slot.toNat → s.answers t h code .invalid [] ∧ s.leaves t requestBlocks) ∧
    ∀ k : Fin 16, s.hist.scan = none → slot.toNat = k.val →
      let header := (u.slot k).header
      (header.state ≠ .complete → header.state ≠ .incomplete → s.answers t h code .refused [] ∧ s.leaves t requestBlocks) ∧
      (header.state = .complete ∨ header.state = .incomplete →
        (s.answers t h code .done { header with isProtected := on }.bytes ∨
          (on = false ∧ (t.slot k).header.state = .writing ∧ s.answers t h code .done (t.slot k).header.bytes)) ∧
        ((t.slot k).header = { header with isProtected := on } ∨ (on = false ∧ (t.slot k).header.state = .writing)) ∧
        (u.slot k).ops <+: (t.slot k).ops ∧ (∀ j, j ≠ k → (s.slot j).Keeps (t.slot j)) ∧
        (header.isProtected ≠ on → ∃ op ∈ (t.slot k).ops, op.kind = .guard ∧
          op.content = { header with isProtected := on } ∧ 1 ≤ op.left ∧ op.left ≤ 400))

/-- R167, R166: ERASE_INCIDENT is refused REFUSED for a slot that is protected or holds no incident; otherwise its
header in force is ERASING with protected clear, the write of that header is started or held behind the slot's other
header writes, the erase of its cells is started, or starts with that write where it is held, the cursor leaves the slot,
and the reply is DONE. That the erase of the cells waits for that write where it is held, and starts with it, is read from
R166 (log 25); the time of the erase, up to 80 ms, is the model's choice (log 9). Where the port has no place for
the reply, none is sent and a FORWARD drop is counted (R6). -/
def Obligations.EraseIncidentStartsTheErase : Prop := ∀ (h : ReqHead) (slot : Byte) (s : State), s.Served h →
  ∃ t, exec (.eraseIncident h slot) s = .next t ∧ s.leaves t [.silence, .staged, .cursor, .headers, .store] ∧
    let u := s.finds h 0x3E [slot]
    (s.hist.scan ≠ none → s.answers t h 0x3E .busy [] ∧ s.leaves t requestBlocks) ∧
    (s.hist.scan = none → 15 < slot.toNat → s.answers t h 0x3E .invalid [] ∧ s.leaves t requestBlocks) ∧
    ∀ k : Fin 16, s.hist.scan = none → slot.toNat = k.val →
      let header := (u.slot k).header
      let erasing := { header with state := .erasing, isProtected := false }
      ((header.state ≠ .complete ∧ header.state ≠ .incomplete) ∨ header.isProtected = true →
        s.answers t h 0x3E .refused [] ∧ s.leaves t requestBlocks) ∧
      (header.state = .complete ∨ header.state = .incomplete → header.isProtected = false →
        s.answers t h 0x3E .done [] ∧ (t.slot k).header = erasing ∧
        ((u.slot k).ops = [] → ∃ n, (t.slot k).erase = some n ∧ 1 ≤ n ∧ n ≤ 16000) ∧
        ((u.slot k).ops ≠ [] → (t.slot k).erase = (s.slot k).erase) ∧
        (t.slot k).cells = (s.slot k).cells ∧ (t.slot k).nv = (s.slot k).nv ∧
        (∃ n, 1 ≤ n ∧ n ≤ 400 ∧ (t.slot k).ops = (u.slot k).ops ++ [⟨.eraseBegin, erasing, n⟩]) ∧
        (∀ c, t.hist.cursor = some c → c.slot ≠ k) ∧ t.store.nvNext = s.store.nvNext ∧
        ∀ j, j ≠ k → (s.slot j).Keeps (t.slot j) ∧ (t.slot j).cells = (s.slot j).cells ∧
          (t.slot j).nv = (s.slot j).nv ∧ (t.slot j).erase = (s.slot j).erase)

/-- R171: TRIGGER sends the recorder a trigger of source REQUEST, taken by the capture state (R156), and then writes a
MARK record, the next of the ring, whose sequence the reply carries after the outcome; mark data above 12 bytes is
refused INVALID. In IDLE the trigger opens an incident on the slot R157 chooses, with the number R155 gives, its window
taken from the ring, its first sequence and PRE_TRUNCATED, and its header claimed (R158, R159), or is refused and
counted; otherwise it joins the incident or the queue, or is counted. The form of the outcome and the widths are the
model's choice (logs 14 and 15). Where the port has no place for the reply, none is sent and a FORWARD drop is counted
(R6). -/
def Obligations.TriggerWritesAMarkRecord : Prop :=
  ∀ (h : ReqHead) (subject : Byte) (mark : List Byte) (s : State), s.Served h → s.CaptureLaw → s.RingLaw →
  ∃ t, exec (.trigger h subject mark) s = .next t ∧ s.leaves t requestBlocks ∧
    let u := s.finds h 0x3F (subject :: mark)
    (12 < mark.length → s.answers t h 0x3F .invalid []) ∧
    (mark.length ≤ 12 →
      u.writes t [⟨s.clock.time, u.hist.nextSeq, .mark, subject,
        [h.src] ++ be16 h.tag.toNat ++ padTo 11 (mark.take 11)⟩] ∧
      u.Triggers t .request subject ∧
      ∃ o, (u.sendTrigger .request subject).work.outcome = some o ∧
        s.answers t h 0x3F .done (o.data ++ be32 u.hist.nextSeq))

/-- A request of an unknown code, one whose parameters have not the length that its layout gives (step 2 of R177, R191),
or one with a scope kind that R190 does not list (R176), is refused INVALID: it has no effect beyond the cancelled load,
which a LOAD_SEGMENT that continues it leaves open (R144), and the reply carries the code and tag it came with. That a
SET_MODE of an unlisted scope kind or of a wrong length is answered with none of R182's values is the model's choice
(log 44). Where the port has no place for the reply, none is sent and a FORWARD drop is counted (R6). -/
def Obligations.UnknownCodesLengthsAndScopesAreRefused : Prop :=
  (∀ (c : Instr) (h : ReqHead) (code : Byte) (params : List Byte) (s : State), requestOf c = some (h, code, params) →
    s.badSource h.src = false → s.serves h = true →
    (2 < h.scopeKind.toNat ∨ c = .unknownRequestCode h code params) →
    ∃ t, exec c s = .next t ∧ s.leaves t requestBlocks ∧ s.answers t h code .invalid [] ∧
      (∀ selector contents, c = .loadSegment h selector contents →
        t.banks = (if loadContinues selector s then s.banks else s.banks.cancelLoad)) ∧
      ((∀ selector contents, c ≠ .loadSegment h selector contents) → t.banks = s.banks.cancelLoad)) ∧
  (∀ (h : ReqHead) (code : Byte) (params : List Byte) (s : State), s.badSource h.src = false → s.serves h = true →
    params.length ≤ 51 → WrongLength code params →
    ∃ t, exec (.frameArrival h.port (requestFrame h code params).bytes) s = .next t ∧ s.leaves t requestBlocks ∧
      s.answers t h code .invalid [] ∧ t.banks = s.banks.cancelLoad)

/-- A request that is not served (R175). One addressed to the device or to 127 whose SRC is 0, 127 or the device's own
address raises the malformed count and has no other effect. One to another address, or to 127 without the scope of this
bogie or of one of its axles, is left alone. Neither cancels a load. A frame of that kind, addressed to the device or to
127, whose payload is shorter than the head of a request raises the malformed count too, and nothing else. -/
def Obligations.UnservedRequestsHaveNoEffect : Prop :=
  ∀ (c : Instr) (h : ReqHead) (code : Byte) (params : List Byte) (s : State), requestOf c = some (h, code, params) →
  let addressed := h.dest = s.nodeByte ∨ h.dest = 127
  let ill := h.src = 0 ∨ h.src = 127 ∨ h.src = s.nodeByte
  (addressed → ill → ∃ t, exec c s = .next t ∧ s.leaves t [.silence, .mgmt] ∧
    t.mgmt.malformed = min (s.mgmt.malformed + 1) 65535 ∧ t.mgmt.noticeAddress = s.mgmt.noticeAddress ∧
    t.mgmt.noticeSide = s.mgmt.noticeSide ∧ t.mgmt.enables = s.mgmt.enables) ∧
  (¬addressed ∨ (¬ill ∧ s.serves h = false) → ∃ t, exec c s = .next t ∧ s.leaves t [.silence]) ∧
  (∀ (p : PortId) (f : Frame), checkArrival f.bytes = .frame f → f.kind = kindRequest → f.payload.length < 5 →
    ((f.dest = s.nodeByte ∨ f.dest = 127) → ∃ t, exec (.frameArrival p f.bytes) s = .next t ∧
      s.leaves t [.silence, .mgmt] ∧ t.mgmt.malformed = min (s.mgmt.malformed + 1) 65535 ∧
      t.mgmt.noticeAddress = s.mgmt.noticeAddress ∧ t.mgmt.noticeSide = s.mgmt.noticeSide ∧
      t.mgmt.enables = s.mgmt.enables) ∧
    (f.dest ≠ s.nodeByte → f.dest ≠ 127 → ∃ t, exec (.frameArrival p f.bytes) s = .next t ∧
      s.leaves t [.silence]))


/-! ### Frames -/

/-- A frame of fewer than 7 or more than 63 bytes, or, with a good CRC, of LEN above 56 or of another length than
LEN + 7, raises the length-reject count; one of a length that passes with a bad CRC raises the CRC-reject count; each
saturates at 65535 and nothing else changes. A frame that passes raises neither, but for a request, which may clear
them (R4, R12, R15, R18). -/
def Obligations.PortChecksCountRejects : Prop := ∀ (p : PortId) (bytes : List Byte) (s : State),
  let n := bytes.length
  let good := crc16 (bytes.take (n - 2)) = readWord (bytes.getD (n - 2) 0) (bytes.getD (n - 1) 0)
  let len := (bytes.getD 4 0).toNat
  (n < 7 ∨ 63 < n ∨ (good ∧ (56 < len ∨ n ≠ len + 7)) →
    exec (.frameArrival p bytes) s =
      .next (s.putPort p { s.port p with lengthRejects := min ((s.port p).lengthRejects + 1) 65535 })) ∧
  (7 ≤ n → n ≤ 63 → ¬good →
    exec (.frameArrival p bytes) s =
      .next (s.putPort p { s.port p with crcRejects := min ((s.port p).crcRejects + 1) 65535 })) ∧
  (good → n = len + 7 → len ≤ 56 → ∃ f t, checkArrival bytes = .frame f ∧ f.bytes = bytes ∧
    exec (.frameArrival p bytes) s = .next t ∧
    (f.kind ≠ kindRequest → ∀ q, (t.port q).lengthRejects = (s.port q).lengthRejects ∧
      (t.port q).crcRejects = (s.port q).crcRejects))

/-- A frame that passes the port checks makes its port's arrival time now, and its silence false (R13), which is handed
on before the match entries are tested, as read from the spec (log 6). Those are tested in ascending number: each that
matches sends, after those of lower number, a FRAME_MATCH trigger of its number, which opens an incident on the slot,
number and window of R155 to R159, joins one, waits or is counted, and writes a FRAME record with the frame's KIND, SRC
and first eight payload bytes (R32). When its DEST is not the device's own address the frame, a MGMT_REQUEST too, stands
byte for byte in the other port's FORWARD queue, or is on the wire there, where that queue holds at most 14 frames and
takes no notice; where it holds 15 or 16 and the port transmits, the frame is dropped and counted, and the queue stays
as it is (R2, R5, R6). What a request that is taken does to what an arrival leaves is apart: a RESTART of this device
empties the queues and clears the counts, a SET_PORT may clear the drops, an ADOPT sets the silence timers again. -/
def Obligations.PassingFramesAreForwarded : Prop := ∀ (p : PortId) (f : Frame) (s : State),
  checkArrival f.bytes = .frame f → ∃ t, exec (.frameArrival p f.bytes) s = .next t ∧
    (t.port p).lastArrival = s.clock.time ∧
    (s.RingLaw → (s.passArrival p).writes t
      ((s.passArrival p).frameRecords f (s.passArrival p).hist.nextSeq [0, 1, 2, 3])) ∧
    (∀ k : Fin 4, (s.cls.matchers.get k).meets f →
      ((s.passArrival p).matchedBelow f k).Triggers t .frameMatch (b8 k.val)) ∧
    (f.kind ≠ kindRequest ∨ f.payload.getD 0 0 ≠ 0x31 → s.banks.pendingAdoption = false → (t.port p).silent = false) ∧
    let other := s.port (otherPort p)
    let taken := fun (codes : List Byte) =>
      f.kind = kindRequest ∧ (f.dest = s.nodeByte ∨ f.dest = 127) ∧ f.payload.getD 0 0 ∈ codes
    (¬taken [0x05] → s.mgmt.noticeSide = p ∨ (s.mgmt.noticeAddress = 0 ∧ s.mgmt.notices = []) →
      other.forward.length ≤ 14 → f.dest ≠ s.nodeByte → (t.port (otherPort p)).passes f) ∧
    (¬taken [0x05] → other.tx ≠ none → 15 ≤ other.forward.length → (t.port (otherPort p)).forward = other.forward) ∧
    (¬taken [0x05, 0x10] → other.tx ≠ none → 15 ≤ other.forward.length → (t.port (otherPort p)).forwardDrops =
      (if f.dest = s.nodeByte then other.forwardDrops else min (other.forwardDrops + 1) 65535))

/-- A policed frame that R24 refuses, in the order of its checks: without an entry of its source the port's
unknown-source count rises; with an entry of another role or side, or a payload of another length or form or not bound to
it, the entry's reject count rises; with a SEQ that is not newer, its sequence-stale count rises. Each saturates at 65535,
and nothing of the frame takes effect. A payload of another length than R190 gives comes as the frame's bytes. -/
def Obligations.RefusedFramesAreCounted : Prop :=
  let unknown := fun (s t : State) (p : PortId) => s.leaves t [.silence, .counts] ∧
    (t.port p).unknownSources = min ((s.port p).unknownSources + 1) 65535 ∧
    (t.port p).crcRejects = (s.port p).crcRejects ∧ (t.port p).lengthRejects = (s.port p).lengthRejects ∧
    (t.port p).framesSent = (s.port p).framesSent ∧
    (t.port (otherPort p)).unknownSources = (s.port (otherPort p)).unknownSources
  let rejected := fun (s t : State) (a : Byte) => s.leaves t [.silence, .stations] ∧
    t.cls.stations = s.stationsWith a (fun x => { x with rejectCount := min (x.rejectCount + 1) 65535 })
  (∀ (c : Instr) (h : FrameHead) (role : Role) (s : State), policed c = some (h, role) →
    (s.station h.src = none → ∃ t, exec c s = .next t ∧ unknown s t h.port) ∧
    ∀ e, s.station h.src = some e →
      (¬(e.role = role ∧ e.side = h.port ∧ carriesWell c e = true) → ∃ t, exec c s = .next t ∧ rejected s t h.src) ∧
      (e.role = role → e.side = h.port → carriesWell c e = true → newerSeq h.seq e.lastSeq = false →
        ∃ t, exec c s = .next t ∧ s.leaves t [.silence, .stations] ∧
          t.cls.stations = s.stationsWith h.src (fun x => { x with staleCount := min (x.staleCount + 1) 65535 }))) ∧
  (∀ (p : PortId) (f : Frame) (s : State), checkArrival f.bytes = .frame f → f.Misformed →
    (s.station f.src = none → ∃ t, exec (.frameArrival p f.bytes) s = .next t ∧ unknown s t p) ∧
    (s.station f.src ≠ none → ∃ t, exec (.frameArrival p f.bytes) s = .next t ∧ rejected s t f.src))

/-- A SEQ is newer than the last where it is 1..127 ahead of it, or where there is none; and a policed frame is accepted
by its SEQ alone where all else of it passes: its SEQ is then the last, and a difference of 2..127 raises the gap count,
saturating at 65535; an older one or a repeat leaves both as they are (R25). A frame of a kind that is not policed, no
request, from a PEER entry is judged by side and SEQ: on another side the entry's reject count rises, with a SEQ that is
not newer its sequence-stale count; otherwise the entry is fresh. From another entry, or none, it does nothing (R28). That
the side of a PEER frame is judged before its SEQ, and that it is counted once, is read from the spec (log 18). -/
def Obligations.SequencesAreJudgedByTheirLead : Prop :=
  (∀ (c : Instr) (h : FrameHead) (role : Role) (e : Station) (s : State), policed c = some (h, role) →
    s.station h.src = some e → e.role = role → e.side = h.port → carriesWell c e = true →
    ∃ t x, exec c s = .next t ∧ t.station h.src = some x ∧
      (e.lastSeq = none → x.lastSeq = some h.seq ∧ x.gapCount = e.gapCount) ∧
      (∀ l, e.lastSeq = some l →
        ((h.seq - l).toNat = 1 → x.lastSeq = some h.seq ∧ x.gapCount = e.gapCount) ∧
        (2 ≤ (h.seq - l).toNat → (h.seq - l).toNat ≤ 127 →
          x.lastSeq = some h.seq ∧ x.gapCount = min (e.gapCount + 1) 65535) ∧
        ((h.seq - l).toNat = 0 ∨ 128 ≤ (h.seq - l).toNat → x.lastSeq = e.lastSeq ∧ x.gapCount = e.gapCount))) ∧
  (∀ (p : PortId) (f : Frame) (s : State), checkArrival f.bytes = .frame f →
    f.kind ∉ [kindDemand, kindAxleSpeed, kindGroundSpeed, kindEffortReport, kindPressureReport, kindRequest] →
    ∃ t, exec (.frameArrival p f.bytes) s = .next t ∧
      ((∀ e, s.station f.src = some e → e.role ≠ .peer) → s.leaves t [.silence]) ∧
      ∀ e, s.station f.src = some e → e.role = .peer → s.leaves t [.silence, .stations] ∧
        t.cls.stations = s.stationsWith f.src (fun x =>
          if e.side ≠ p then { x with rejectCount := min (x.rejectCount + 1) 65535 }
          else if newerSeq f.seq e.lastSeq = false then { x with staleCount := min (x.staleCount + 1) 65535 }
          else x.afterFrame f.seq s.clock.time))

/-- An accepted DEMAND sets the levels, at most 1000, ends every hold but a PENALTY without acknowledgement, sets the
emergency latch or, below V_min, clears it (R35 to R41), and moves the application: a demand opens or resumes it, its
end begins its release in ACTIVE mode and completes it in another mode (R44 to R46). In ACTIVE mode an evaluation on the
new levels ends the event (R43), whose outputs are those last sent where a station entry is bound (R97, R111). It writes
the DEMAND record, with the levels, the flags, the latch and the hold, and then the MODE record of each change of the
application (R35, R44 to R46); an EMERGENCY flag that finds the latch clear sends the EMERGENCY trigger with the
sequence of that DEMAND record (R40). That the application number is raised after the EMERGENCY trigger and the
conditions are handed on is the model's choice (log 50). -/
def Obligations.DemandIsTaken : Prop :=
  ∀ (h : FrameHead) (service independent : BitVec 16) (flags : Byte) (e : Station) (s : State),
  s.Accepts (.demand h service independent flags) h .cab e →
  let hold : Hold := if s.demand.hold = .penalty ∧ flags.getLsbD 1 = false then .penalty else .none
  let latch := flags.getLsbD 0 || (s.demand.emergency && decide (s.vMin ≤ s.slide.vref))
  let demanded := hold = .penalty ∨ service ≠ 0 ∨ independent ≠ 0 ∨ latch = true
  ∃ t, exec (.demand h service independent flags) s = .next t ∧
    t.demand.lLast = min service.toNat 1000 ∧ t.demand.iLast = min independent.toNat 1000 ∧
    t.demand.hold = hold ∧ t.demand.emergency = latch ∧
    t.cls.stations = s.stationsWith h.src (fun x => x.afterFrame h.seq s.clock.time) ∧
    (s.demand.mode = .active ∨ demanded ∨ s.demand.app ≠ .applied →
      s.leaves t [.silence, .stations, .demand, .application] ∧ t.demand.mode = s.demand.mode) ∧
    s.leaves t [.silence, .stations, .demand, .application, .slide, .sequencer, .active, .staged] ∧
    (demanded → t.demand.app = .applied ∧ t.demand.appNumber =
      (if s.demand.app = .released then s.demand.appNumber + 1 else s.demand.appNumber)) ∧
    (¬demanded → t.demand.appNumber = s.demand.appNumber ∧ t.demand.app =
      (if s.demand.app = .applied then (if s.demand.mode = .active then .releasing else .released)
        else s.demand.app)) ∧
    (¬demanded → s.demand.app = .applied → s.demand.mode = .active → t.demand.releaseTimer =
      s.banks.active.map (fun b => ⟨s.clock.time, b.supervision.releaseConfirm⟩)) ∧
    (let row := (RecordKind.demand, h.src, be16 (min service.toNat 1000) ++ be16 (min independent.toNat 1000) ++
       [flags, flag latch, hold.code])
     let m := s.demand.mode
     let number := s.demand.appNumber
     (s.RingLaw → demanded → s.logs t (row :: match s.demand.app with
       | .released => [modeRow s 0 0 1 m .applied (number + 1) 0]
       | .applied => []
       | .releasing => [modeRow s 0 2 1 m .applied number 0])) ∧
     (s.RingLaw → ¬demanded → s.logs t (row :: if s.demand.app = .applied then
       modeRow s 0 1 2 m .releasing number 0 :: (if m = .active then [] else [modeRow s 0 2 0 m .released number 3])
       else [])) ∧
     (s.RingLaw → s.CaptureLaw → flags.getLsbD 0 = true → s.demand.emergency = false →
       s.logsTriggered t row .emergency h.src)) ∧
    (∀ b, s.demand.mode = .active → s.banks.active = some b →
      t.blend.fPrev = (if hold = .penalty then 1000 else min service.toNat 1000) * b.bogie.fFull / 1000 ∧
      (∀ i, s.converterOf i ≠ none → (t.out i).lastSent = some (t.out i).content) ∧
      (s.valve ≠ none → t.blend.pressure.lastSent = some t.blend.pressure.content))

/-- An accepted AXLE_SPEED makes its entry fresh; each OK sample sets its axle's last good speed, at most 2000, its
state to FRESH and its timers with the entry's limits, each DOUBTFUL one raises the axle's doubtful count alone, and the
other axles stay (R26, R29). The reference speed then moves by the fall law (R54 to R57). -/
def Obligations.AxleSpeedsAreTaken : Prop := ∀ (h : FrameHead) (xs : List SpeedSample) (e : Station) (s : State),
  s.Accepts (.axleSpeed h xs) h .axleUnit e → ∃ t, exec (.axleSpeed h xs) s = .next t ∧
    s.leaves t [.silence, .stations, .samples, .slide, .sequencer] ∧
    t.cls.stations = s.stationsWith h.src (fun x => x.afterFrame h.seq s.clock.time) ∧
    (∀ x ∈ xs, ∀ g : Fin 12, x.axle.toNat = g.val →
      (x.quality = 0 → t.sample g = { s.sample g with
        state := .fresh, lastGood := min x.speed.toNat 2000, freshTimer := some ⟨s.clock.time, e.freshLimit⟩
        concealTimer := if e.concealLimit = 0 then none else some ⟨s.clock.time, e.freshLimit + e.concealLimit⟩ }) ∧
      (x.quality = 1 → t.sample g = { s.sample g with doubtful := min ((s.sample g).doubtful + 1) 65535 })) ∧
    (∀ g : Fin 12, (∀ x ∈ xs, x.axle.toNat ≠ g.val) → t.sample g = s.sample g) ∧
    (s.withCls t.cls).Referred t ∧ t.slide.radarSpeed = s.slide.radarSpeed

/-- In ACTIVE mode an OK sample of an own configured axle moves its slide record by its slip and creep against the
reference speed: an indication in CLEAR or SUSPECT counts towards SLIDING, a clear sample in SLIDING ends the period, in
RECOVERING restores by a step, an indication there slides again, and a spent allowance isolates (R59 to R68): in SLIDING
the one that its period began with, since a new T_slide_max applies from the next entry (R75). In UNSENSED the sample
leads to RECOVERING at the band's cut factor (R70). Each change of state writes an AXLE record, a re-entry without an
allowance two, and an entry to SLIDING sends its trigger with the sequence of its record (R71). The entries of the
arrival, and whether an axle slides after it, are handed to the air sequencer: it dumps on what is left of the budget,
or is exhausted, or passes from DUMP to HOLD at the held level with the end of sliding (R79, R80, R82, R83). That an
episode time and a dump time stop at their bounds is the model's choice (log 24). -/
def Obligations.SamplesMoveTheSlideState : Prop :=
  ∀ (h : FrameHead) (xs : List SpeedSample) (e : Station) (s : State) (b : Tables) (i : Fin 3) (x : SpeedSample),
  s.Accepts (.axleSpeed h xs) h .axleUnit e → s.banks.active = some b → s.demand.mode = .active →
  i.val < b.bogie.n → x ∈ xs → x.quality = 0 → x.axle.toNat = 3 * s.ident.position.val + i.val →
  ∃ t, exec (.axleSpeed h xs) s = .next t ∧
    let v := t.slide.vref
    let slip := v - min x.speed.toNat 2000
    let creep := if v < b.supervision.vMin then 0 else slip * 1000 / v
    let band := chooseBand b.bands v
    let low := v < b.supervision.vMin
    let indication := ¬low ∧ (band.creepOn ≤ creep ∨ band.slipOn ≤ slip)
    let clear := low ∨ (¬indication ∧ creep ≤ band.creepOff)
    let r := s.axle i
    let slides := fun (q : SlideRecord) => q.state = .sliding ∧ q.factor = band.cut ∧ q.suspect = 0 ∧
      q.episodeTime = 0 ∧ q.periodStart = s.clock.time ∧ q.episodes = min (r.episodes + 1) 65535 ∧
      q.allowance = some ⟨s.clock.time, b.supervision.tSlideMax⟩
    let isolated := fun (q : SlideRecord) => q.state = .isolated ∧ q.factor = 0 ∧ q.allowance = none
    (t.axle i).lastSlip = slip ∧ (t.axle i).lastCreep = creep ∧
    (r.state = .clear → indication → band.confirm ≤ 1 → slides (t.axle i)) ∧
    (r.state = .clear → indication → 1 < band.confirm → (t.axle i).state = .suspect ∧ (t.axle i).suspect = 1 ∧
      (t.axle i).factor = r.factor) ∧
    (r.state = .clear → ¬indication → t.axle i = { r with lastSlip := slip, lastCreep := creep }) ∧
    (r.state = .suspect → indication → band.confirm ≤ r.suspect + 1 → slides (t.axle i)) ∧
    (r.state = .suspect → indication → r.suspect + 1 < band.confirm →
      t.axle i = { r with lastSlip := slip, lastCreep := creep, suspect := r.suspect + 1 }) ∧
    (r.state = .suspect → ¬indication →
      t.axle i = { r with lastSlip := slip, lastCreep := creep, state := .clear, suspect := 0 }) ∧
    (r.state = .sliding →
      let limit := match r.allowance with | some a => r.episodeTime + a.len | none => b.supervision.tSlideMax
      let reached := limit ≤ r.episodeTime + (s.clock.time - r.periodStart).toNat
      (reached → isolated (t.axle i)) ∧
      (¬reached → clear → (t.axle i).state = .recovering ∧ (t.axle i).factor = r.factor ∧
        (t.axle i).episodeTime = min (r.episodeTime + (s.clock.time - r.periodStart).toNat) 30000 ∧
        (t.axle i).allowance = none) ∧
      (¬reached → ¬clear → t.axle i = { r with lastSlip := slip, lastCreep := creep })) ∧
    (r.state = .recovering →
      (clear → r.factor + band.restore < 1000 →
        t.axle i = { r with lastSlip := slip, lastCreep := creep, factor := r.factor + band.restore }) ∧
      (clear → 1000 ≤ r.factor + band.restore →
        t.axle i = { r with lastSlip := slip, lastCreep := creep, state := .clear, factor := 1000 }) ∧
      (indication → r.episodeTime < b.supervision.tSlideMax → (t.axle i).state = .sliding ∧
        (t.axle i).factor = band.cut ∧ (t.axle i).episodeTime = r.episodeTime ∧
        (t.axle i).periodStart = s.clock.time ∧ (t.axle i).episodes = r.episodes ∧
        (t.axle i).allowance = some ⟨s.clock.time, b.supervision.tSlideMax - r.episodeTime⟩) ∧
      (indication → b.supervision.tSlideMax ≤ r.episodeTime → isolated (t.axle i)) ∧
      (¬clear → ¬indication → t.axle i = { r with lastSlip := slip, lastCreep := creep })) ∧
    (r.state = .isolated → t.axle i = { r with lastSlip := slip, lastCreep := creep }) ∧
    (r.state = .unsensed → (t.axle i).state = .recovering ∧ (t.axle i).factor = band.cut) ∧
    (let row := fun (old new : SlideState) (factor : Nat) => axleRow t i old new (min x.speed.toNat 2000) creep factor
     let twice := r.state = .recovering ∧ (t.axle i).state = .isolated
     let begins := fun (j : Fin 3) => (s.axle j).state ≠ .sliding ∧ ((t.axle j).state = .sliding ∨
       ((s.axle j).state = .recovering ∧ (t.axle j).state = .isolated))
     let rows := if (t.axle i).state = r.state then []
       else if twice then [row .recovering .sliding band.cut, row .sliding .isolated 0]
       else [row r.state (t.axle i).state (t.axle i).factor]
     (s.RingLaw → s.logs t rows) ∧
     (s.RingLaw → s.CaptureLaw → s.hist.slidingTrigger = true → begins i → s.logsTriggered t
       (row r.state .sliding band.cut) .sliding (b8 (3 * s.ident.position.val + i.val))) ∧
     s.SlideHandedOn t b (∃ y ∈ xs, y.quality = 0 ∧ ∃ j : Fin 3, j.val < b.bogie.n ∧
       y.axle.toNat = 3 * s.ident.position.val + j.val ∧ begins j) rows) ∧
    (∀ j : Fin 3, (∀ y ∈ xs, y.axle.toNat ≠ 3 * s.ident.position.val + j.val) → t.axle j = s.axle j)

/-- An accepted GROUND_SPEED of quality OK makes its entry fresh, sets the radar speed, at most 2000, and moves the
reference speed by the fall law; one of quality DOUBTFUL sets its entry's last SEQ and gap count, raises the radar
doubtful count and does nothing else (R26, R54 to R57). -/
def Obligations.GroundSpeedsAreTaken : Prop :=
  ∀ (h : FrameHead) (speed : BitVec 16) (quality : Byte) (e : Station) (s : State),
  s.Accepts (.groundSpeed h speed quality) h .radar e → ∃ t, exec (.groundSpeed h speed quality) s = .next t ∧
    (quality = 0 → s.leaves t [.silence, .stations, .slide] ∧
      t.cls.stations = s.stationsWith h.src (fun x => x.afterFrame h.seq s.clock.time) ∧
      t.slide.radarSpeed = min speed.toNat 2000 ∧ t.slide.axles = s.slide.axles ∧
      ((s.withCls t.cls).withSlide { s.slide with radarSpeed := min speed.toNat 2000 }).Referred t) ∧
    (quality = 1 → s.leaves t [.silence, .stations, .radarDoubtful] ∧
      t.cls.radarDoubtful = min (s.cls.radarDoubtful + 1) 65535 ∧
      t.cls.stations = s.stationsWith h.src (fun x => { x with
        lastSeq := some h.seq
        gapCount := if gapSeq h.seq x.lastSeq then min (x.gapCount + 1) 65535 else x.gapCount }))

/-- An accepted EFFORT_REPORT makes its entry fresh with the reported status, and sets the achieved effort, at most 2000,
and the status of an own axle; the other own axles stay (R26, R96). -/
def Obligations.EffortReportsAreTaken : Prop :=
  ∀ (h : FrameHead) (axle : Byte) (effort : BitVec 16) (status : Byte) (e : Station) (s : State),
  s.Accepts (.effortReport h axle effort status) h .converter e →
  ∃ t st, ConverterStatus.ofCode status = some st ∧ exec (.effortReport h axle effort status) s = .next t ∧
    s.leaves t [.silence, .stations, .efforts] ∧
    t.cls.stations = s.stationsWith h.src (fun x => { x.afterFrame h.seq s.clock.time with lastStatus := st }) ∧
    ∀ i : Fin 3,
      (axle.toNat = 3 * s.ident.position.val + i.val →
        (t.out i).achieved = min effort.toNat 2000 ∧ (t.out i).status = st) ∧
      (axle.toNat ≠ 3 * s.ident.position.val + i.val →
        (t.out i).achieved = (s.out i).achieved ∧ (t.out i).status = (s.out i).status)

/-- An accepted PRESSURE_REPORT makes its entry fresh. Of the device's own bogie it sets the measured pressure, at most
1000, and the status; in ACTIVE mode with the sequencer in NORMAL it is judged against the commanded pressure: a match
ends CYLINDER_MISMATCH and the mismatch timer, a mismatch starts that timer; and in RELEASING a pressure at the release
threshold with no effort commanded releases the brake (R26, R46, R88, R89). That supervision takes the report before
release confirmation is the model's choice (log 46). -/
def Obligations.PressureReportsAreTaken : Prop :=
  ∀ (h : FrameHead) (bogie : Byte) (pressure : BitVec 16) (status : Byte) (e : Station) (s : State),
  s.Accepts (.pressureReport h bogie pressure status) h .valve e →
  ∃ t st, ValveStatus.ofCode status = some st ∧ exec (.pressureReport h bogie pressure status) s = .next t ∧
    t.cls.stations = s.stationsWith h.src (fun x => x.afterFrame h.seq s.clock.time) ∧
    (bogie.toNat ≠ s.ident.position.val → s.leaves t [.silence, .stations]) ∧
    (bogie.toNat = s.ident.position.val →
      let measured := min pressure.toNat 1000
      let pOut := s.blend.pressure.content.pressure
      t.air.measured = measured ∧ t.air.status = st ∧
      s.leaves t [.silence, .stations, .pressure, .application, .slide, .sequencer, .active, .staged] ∧
      (s.demand.mode ≠ .active ∨ s.air.state ≠ .normal → t.air.mismatch = s.air.mismatch) ∧
      (∀ b, s.banks.active = some b → s.demand.mode = .active →
        let agrees := st = .ok ∧ measured ≤ pOut + b.supervision.tolerance ∧
          pOut ≤ measured + b.supervision.tolerance
        (s.air.state = .normal → (agrees → t.air.mismatch = false) ∧
          (¬agrees → t.air.mismatch = s.air.mismatch)) ∧
        (s.air.state = .normal → agrees → s.air.mismatch = false → t.air.mismatchTimer = none) ∧
        (s.air.state = .normal → ¬agrees → s.air.mismatch = false → s.air.mismatchTimer = none →
          t.air.mismatchTimer = some ⟨s.clock.time, b.supervision.tMismatch⟩ ∨
            (t.air.mismatchTimer = none ∧ t.blend.pressure.content.pressure ≠ pOut)) ∧
        let released := s.demand.app = .releasing ∧ measured ≤ b.supervision.releaseThreshold ∧
          ∀ i : Fin 3, i.val < b.bogie.n → (s.out i).content.effort = 0
        (released → t.demand.app = .released ∧ t.demand.releaseTimer = none) ∧
        (¬released → s.leaves t [.silence, .stations, .pressure])))

/-! ### Completions and expiries -/

/-- At the completion of a transmission the frame is counted as sent and the arbiter selects by the table of R10: the
head of COMMAND where FORWARD is empty or fewer than four commands in a row went before a waiting frame, the head of
FORWARD otherwise. An originated frame is stamped with the device's address, a SEQ and its CRC, a forwarded one goes as
it came (R2, R10 to R12). Where the FORWARD queue of the notice side falls below its threshold by it, the pending notice
at the head is offered: its NOTICE frame joins that queue (R185, R186), here an INCIDENT or MODE notice, whose value
settling does not change. That the command finds nothing to do on an idle transmitter is the model's choice (log 4). -/
def Obligations.CompletedTransmissionsSelectTheNextFrame : Prop := ∀ (p : PortId) (s : State),
  ((s.port p).tx = none → exec (.transmissionComplete p) s = .next s) ∧
  ((s.port p).tx ≠ none → ∃ t, exec (.transmissionComplete p) s = .next t ∧ s.leaves t [.counts] ∧
    (t.port p).framesSent = min ((s.port p).framesSent + 1) 65535 ∧
    (t.port p).crcRejects = (s.port p).crcRejects ∧ (t.port p).lengthRejects = (s.port p).lengthRejects ∧
    (t.port p).unknownSources = (s.port p).unknownSources ∧
    (t.port (otherPort p)).framesSent = (s.port (otherPort p)).framesSent ∧
    (t.port (otherPort p)).crcRejects = (s.port (otherPort p)).crcRejects ∧
    (t.port (otherPort p)).lengthRejects = (s.port (otherPort p)).lengthRejects ∧
    (t.port (otherPort p)).unknownSources = (s.port (otherPort p)).unknownSources ∧
    (∀ c cs, (s.port p).command = c :: cs → (s.port p).forward = [] ∨ (s.port p).fairness < 4 →
      ∃ n, (t.port p).tx = some ⟨Frame.sealed c.frame.kind c.frame.dest s.nodeByte n c.frame.payload,
        c.frame.payload.length + 9⟩ ∧
      (t.port p).fairness = (if (s.port p).forward = [] then 0 else (s.port p).fairness + 1) ∧
      ((s.port (otherPort p)).tx ≠ none → n = s.link.seq ∧ t.link.seq = s.link.seq + 1)) ∧
    (∀ q qs, (s.port p).forward = q :: qs → (s.port p).command = [] ∨ 4 ≤ (s.port p).fairness →
      (t.port p).fairness = 0 ∧
      (∀ x xs, s.mgmt.notices = x :: xs → x.kind = .incident ∨ x.kind = .mode → p = s.mgmt.noticeSide →
        s.work = Work.clear → qs.length < (s.port p).threshold → qs.length ≤ 14 →
        (t.port p).carries (s.noticeOrig x)) ∧
      (∀ f, q = .forwarded f → (t.port p).tx = some ⟨f, f.payload.length + 9⟩ ∧
        ((s.port (otherPort p)).tx ≠ none → t.link.seq = s.link.seq)) ∧
      (∀ o, q = .originated o → ∃ n, (t.port p).tx =
          some ⟨Frame.sealed o.kind o.dest s.nodeByte n o.payload, o.payload.length + 9⟩ ∧
        ((s.port (otherPort p)).tx ≠ none → n = s.link.seq ∧ t.link.seq = s.link.seq + 1))))

/-- The expiry of a silence timer makes its port silent (R13), that of the REFERENCE_LOST timer REFERENCE_LOST (R57),
and that of the mismatch timer CYLINDER_MISMATCH (R90): each is handed to its restriction entry, which computes its
pending state, and whose edge sends its trigger, writes the PENDING record, latches it and gives a notice (R122 to
R124), whose NOTICE frame is offered at once where none waits and the notice side takes it (R185, R186). That a timer
that does not run leaves everything as it is, is the model's choice (log 4). -/
def Obligations.ConditionTimersRaiseTheirConditions : Prop := ∀ (p : PortId) (s : State),
  ((s.port p).silenceTimer = none → exec (.silenceTimerExpiry p) s = .next s) ∧
  ((s.port p).silenceTimer ≠ none → ∃ t, exec (.silenceTimerExpiry p) s = .next t ∧ s.leaves t [.silence] ∧
    (t.port p).silent = true ∧ (t.port p).silenceTimer = none ∧
    (t.port p).lastArrival = (s.port p).lastArrival ∧
    (∀ q, q ≠ p → (t.port q).silent = (s.port q).silent ∧ (t.port q).silenceTimer = (s.port q).silenceTimer ∧
      (t.port q).lastArrival = (s.port q).lastArrival) ∧
    (t.entry (if p = .a then 14 else 15)).condition = true ∧
    (s.RingLaw → s.TakesCondition t (if p = .a then 14 else 15) true)) ∧
  (s.slide.refTimer = none → exec .referenceLostExpiry s = .next s) ∧
  (s.slide.refTimer ≠ none → ∃ t, exec .referenceLostExpiry s = .next t ∧ s.leaves t [.slide] ∧
    t.slide = { s.slide with refTimer := none, refLost := true } ∧ (t.entry 3).condition = true ∧
    (s.RingLaw → s.TakesCondition t 3 true)) ∧
  (s.air.mismatchTimer = none → exec .mismatchTimerExpiry s = .next s) ∧
  (s.air.mismatchTimer ≠ none → ∃ t, exec .mismatchTimerExpiry s = .next t ∧ s.leaves t [.pressure] ∧
    t.air.measured = s.air.measured ∧ t.air.status = s.air.status ∧
    t.air.mismatch = true ∧ t.air.mismatchTimer = none ∧
    (t.entry 12).condition = decide (s.demand.mode = .active) ∧
    (s.RingLaw → s.TakesCondition t 12 (decide (s.demand.mode = .active))))

/-- The expiry of a station's freshness timer makes its FRESH entry LATE, or STALE with a conceal limit of 0, and that
of its conceal timer makes its LATE entry STALE; no other entry changes (R27). The CAB entry's LATE holds the demand, its
STALE penalises it (R38, R39). -/
def Obligations.StationTimersAgeTheEntry : Prop := ∀ (a : Byte) (e : Station) (s : State), s.station a = some e →
  (e.freshTimer ≠ none → e.state = .fresh → ∃ t, exec (.stationFreshnessExpiry a) s = .next t ∧
    t.cls.stations = s.stationsWith a (fun _ => { e with
      state := if e.concealLimit = 0 then .stale else .late, freshTimer := none
      concealTimer := if e.concealLimit = 0 then none else e.concealTimer }) ∧
    t.cls.samples = s.cls.samples ∧ t.cls.matchers = s.cls.matchers ∧
    (e.role ≠ .cab → s.leaves t [.stations]) ∧
    (e.role = .cab →
      s.leaves t [.silence, .stations, .demand, .application, .slide, .sequencer, .active, .staged] ∧
      t.demand.lLast = s.demand.lLast ∧ t.demand.iLast = s.demand.iLast ∧
      t.demand.emergency = s.demand.emergency ∧
      (e.concealLimit ≠ 0 → t.demand.hold = (if s.demand.hold = .none then .held else s.demand.hold)) ∧
      (e.concealLimit = 0 → t.demand.hold =
        (if s.demand.hold = .startHold then .startHold else .penalty)))) ∧
  (e.concealTimer ≠ none → e.state = .late → ∃ t, exec (.stationConcealExpiry a) s = .next t ∧
    t.cls.stations = s.stationsWith a (fun _ => { e with state := .stale, concealTimer := none }) ∧
    (e.role ≠ .cab → s.leaves t [.stations]) ∧
    (e.role = .cab →
      s.leaves t [.silence, .stations, .demand, .application, .slide, .sequencer, .active, .staged] ∧
      t.demand.hold = (if s.demand.hold = .startHold then .startHold else .penalty)))

/-- The expiry of an axle's freshness timer makes its FRESH sample LATE, or STALE where no conceal timer runs, and that
of its conceal timer makes its LATE sample STALE; the last good speed and the other samples stay (R29). A STALE sample
of an own configured axle in ACTIVE mode leaves the axle UNSENSED with slide factor 0, unless it is ISOLATED (R69). The
change writes an AXLE record with the last good speed (R71), and is handed to the air sequencer with no entry to
SLIDING: a dump passes to HOLD where no axle slides any more (R80). That a dump time stops at the budget is the model's
choice (log 24). -/
def Obligations.AxleTimersAgeTheSample : Prop := ∀ (g : Fin 12) (s : State),
  let lost := fun (t : State) => ∀ i : Fin 3, g.val = 3 * s.ident.position.val + i.val →
    (∀ j, j ≠ i → t.axle j = s.axle j) ∧
    (s.demand.mode = .active → i.val < s.n → (s.axle i).state ≠ .isolated → (s.axle i).state ≠ .unsensed →
      (t.axle i).state = .unsensed ∧ (t.axle i).factor = 0 ∧ (t.axle i).suspect = 0 ∧
      let rows := [axleRow s i (s.axle i).state .unsensed (s.sample g).lastGood (s.axle i).lastCreep 0]
      (s.RingLaw → s.logs t rows) ∧ ∀ b, s.banks.active = some b → s.SlideHandedOn t b False rows) ∧
    ((s.axle i).state = .isolated ∨ s.demand.mode ≠ .active ∨ s.n ≤ i.val → t.axle i = s.axle i)
  ((s.sample g).freshTimer ≠ none → (s.sample g).state = .fresh →
    ∃ t, exec (.axleFreshnessExpiry g) s = .next t ∧ s.leaves t [.samples, .slide, .sequencer] ∧
      ((s.sample g).concealTimer = none →
        t.sample g = { s.sample g with state := .stale, freshTimer := none } ∧ lost t) ∧
      ((s.sample g).concealTimer ≠ none →
        t.sample g = { s.sample g with state := .late, freshTimer := none } ∧ t.slide = s.slide) ∧
      ∀ j, j ≠ g → t.sample j = s.sample j) ∧
  ((s.sample g).concealTimer ≠ none → (s.sample g).state = .late →
    ∃ t, exec (.axleConcealExpiry g) s = .next t ∧ s.leaves t [.samples, .slide, .sequencer] ∧
      t.sample g = { s.sample g with state := .stale, concealTimer := none } ∧ lost t ∧
      ∀ j, j ≠ g → t.sample j = s.sample j)

/-- The release-confirm timer releases the brake in RELEASING, with the pending adoption taken (R46, R47, R146). That it
does nothing in another application state, or where it does not run (log 4), and that the aggregates are handed on once
after the return of all axles (log 52), are the model's choices. -/
def Obligations.ReleaseTimesOut : Prop := ∀ (s : State),
  (s.demand.releaseTimer = none ∨ s.demand.app ≠ .releasing → exec .releaseConfirmExpiry s = .next s) ∧
  (s.demand.releaseTimer ≠ none → s.demand.app = .releasing → ∃ t, exec .releaseConfirmExpiry s = .next t ∧
    s.leaves t [.silence, .application, .slide, .sequencer, .active, .staged] ∧
    t.demand.app = .released ∧ t.demand.releaseTimer = none ∧ t.demand.appNumber = s.demand.appNumber ∧
    (s.air.state = .normal → t.air.used = 0 ∧ t.air.exhausted = false) ∧
    (s.banks.pendingAdoption = true → t.banks.active = some s.banks.adoptTables ∧
      t.banks.adoptions = min (s.banks.adoptions + 1) 65535 ∧ t.banks.pendingAdoption = false ∧
      t.banks.states = ⟨.untouched, .untouched, .untouched, .untouched⟩) ∧
    (s.banks.pendingAdoption = false → t.banks = s.banks ∧ t.demand.mode = s.demand.mode ∧
      ∀ i : Fin 3, (s.axle i).state = .isolated → i.val < s.n → (t.axle i).state = .clear ∧ (t.axle i).factor = 1000 ∨
        (t.axle i).state = .unsensed ∧ (t.axle i).factor = 0))

/-- The allowance timer isolates a SLIDING axle: slide factor 0, its time in SLIDING added to the episode, the other
axles as they were (R66). The change writes an AXLE record with the axle's last good speed (R71), and in ACTIVE mode it
is handed to the air sequencer with no entry to SLIDING: a dump passes to HOLD where no axle slides any more (R80). That
it does nothing in another slide state or where it does not run (log 4), and that an episode time stops at 30000 (log
24), are the model's choices. -/
def Obligations.AllowancesIsolateTheAxle : Prop := ∀ (i : Fin 3) (s : State),
  ((s.axle i).allowance = none ∨ (s.axle i).state ≠ .sliding → exec (.allowanceTimerExpiry i) s = .next s) ∧
  ((s.axle i).allowance ≠ none → (s.axle i).state = .sliding →
    ∃ t, exec (.allowanceTimerExpiry i) s = .next t ∧ s.leaves t [.slide, .sequencer] ∧
      t.axle i = { s.axle i with
        state := .isolated, factor := 0, allowance := none
        episodeTime := min ((s.axle i).episodeTime + (s.clock.time - (s.axle i).periodStart).toNat) 30000 } ∧
      (let rows := [axleRow s i .sliding .isolated (s.ownSample i).lastGood (s.axle i).lastCreep 0]
       (s.RingLaw → s.logs t rows) ∧
       ∀ b, s.demand.mode = .active → s.banks.active = some b → s.SlideHandedOn t b False rows) ∧
      (∀ j, j ≠ i → t.axle j = s.axle j) ∧ t.slide.vref = s.slide.vref ∧ t.slide.acc = s.slide.acc)

/-- The sequencer's timers. The dump timer in DUMP exhausts the budget and returns to NORMAL (R81). The hold timer in
HOLD begins REAPPLY at the held level, or returns to NORMAL where that reaches the setpoint (R82). The step timer in
REAPPLY adds the reapply step, at most 1000, and returns to NORMAL at the setpoint (R83, R84). That a timer that does not
run does nothing is the model's choice (log 4). -/
def Obligations.SequencerTimersMoveTheSequencer : Prop := ∀ (s : State),
  (s.air.dumpTimer = none → exec .dumpTimerExpiry s = .next s) ∧
  (s.air.holdTimer = none → exec .holdTimerExpiry s = .next s) ∧
  (s.air.stepTimer = none → exec .stepTimerExpiry s = .next s) ∧
  (s.air.dumpTimer ≠ none → s.air.state = .dump → ∃ t, exec .dumpTimerExpiry s = .next t ∧ s.leaves t [.sequencer] ∧
    t.air.state = .normal ∧ t.air.exhausted = true ∧ t.air.used = s.dumpBudget ∧ t.air.dumpTimer = none) ∧
  (s.air.holdTimer ≠ none → s.air.state = .hold → ∃ t, exec .holdTimerExpiry s = .next t ∧ s.leaves t [.sequencer] ∧
    t.air.holdTimer = none ∧ t.air.exhausted = s.air.exhausted ∧ t.air.used = s.air.used ∧
    (s.air.pSet ≤ s.air.held → t.air.state = .normal) ∧
    (s.air.held < s.air.pSet → t.air.reapply = s.air.held ∧
      (t.air.pSet ≤ s.air.held → t.air.state = .normal ∧ t.air.stepTimer = none) ∧
      (s.air.held < t.air.pSet → t.air.state = .reapply ∧ t.air.stepTimer = some ⟨s.clock.time, s.tSlide⟩))) ∧
  (s.air.stepTimer ≠ none → s.air.state = .reapply → ∃ t, exec .stepTimerExpiry s = .next t ∧ s.leaves t [.sequencer] ∧
    let level := min (s.air.reapply + s.reapplyStep) 1000
    t.air.reapply = level ∧ t.air.exhausted = s.air.exhausted ∧ t.air.used = s.air.used ∧
    (s.air.pSet ≤ level ∨ t.air.pSet ≤ level → t.air.state = .normal ∧ t.air.stepTimer = none) ∧
    (level < s.air.pSet → level < t.air.pSet → t.air.state = .reapply ∧
      t.air.stepTimer = some ⟨s.clock.time, s.tSlide⟩))

/-- The handover timer ends the hold: in ACTIVE mode one evaluation gives every own configured axle its target, with no
value pending and no timer running (R105, R108), and offers the outputs that differ from what was last sent, and no other
(R111). That a timer that does not run leaves everything as it is, is the model's choice (log 4). -/
def Obligations.HandoverEndsTheHold : Prop := ∀ (s : State),
  (s.blend.handover = none → exec .handoverTimerExpiry s = .next s) ∧
  (∀ b, s.blend.handover ≠ none → s.demand.mode = .active → s.banks.active = some b → s.Steady →
    ∃ t, exec .handoverTimerExpiry s = .next t ∧ s.leaves t [.handover] ∧ t.blend.handover = none ∧
      t.blend.work = s.blendWork b ∧ t.blend.fPrev = (s.blendWork b).fDem ∧
      (∀ i, s.SendsEffort t b i) ∧ s.SendsPressure t b ∧
      ∀ i : Fin 3, (t.out i).pendingEffort = none ∧
        (t.out i).content.effort = (if i.val < b.bogie.n then ((s.blendWork b).axles.get i).target else 0))

/-- A refresh timer offers its output again in ACTIVE mode: its content is the last sent, and the timer restarts
(R112). That a timer that does not run, and any in another mode, leaves everything as it is, is the model's choice
(log 4). -/
def Obligations.RefreshOffersTheOutputAgain : Prop := ∀ (s : State),
  (∀ k, s.refreshRuns k = false ∨ s.demand.mode ≠ .active → exec (.refreshTimerExpiry k) s = .next s) ∧
  (∀ (i : Fin 3) e b, (s.out i).refresh ≠ none → s.demand.mode = .active → s.banks.active = some b →
    s.converterOf i = some e → ∃ t, exec (.refreshTimerExpiry i.castSucc) s = .next t ∧ s.leaves t [] ∧
      (t.out i).lastSent = some (t.out i).content ∧
      (t.out i).refresh = some ⟨s.clock.time, b.supervision.tRefresh⟩ ∧
      (s.Steady → (t.out i).content = (s.out i).content ∧
        (t.port e.side).commands i.castSucc (s.effortFrame i e))) ∧
  (∀ e b, s.blend.pressure.refresh ≠ none → s.demand.mode = .active → s.banks.active = some b →
    s.valve = some e → ∃ t, exec (.refreshTimerExpiry 3) s = .next t ∧ s.leaves t [] ∧
      t.blend.pressure.lastSent = some t.blend.pressure.content ∧
      t.blend.pressure.refresh = some ⟨s.clock.time, b.supervision.tRefresh⟩ ∧
      (s.Steady → t.blend.pressure.content = s.blend.pressure.content ∧
        (t.port e.side).commands 3 (s.pressureFrame e)))

/-! ### The store -/

/-- The completion of a slot's header write puts its content into NV and lets the slot's next held write run; the
slot's cells and the other slots' NV stay, and its header in force, unless the same event claims the slot; an erase whose
header write was held starts with it (R158, R160, R166, R167). The claim's frees the commit that waits for it: stage 1
where the slot held an incident, else the first cell, or stage 3 where the incident has no record (R160). The completion of
an erase of a slot blanks its cells, frees the slot with a write of its FREE header, and leaves the other slots (R167).
That a held erase of the cells starts with its own header write is read from R166 (log 25); the times, up to 2 ms and 80 ms
(log 9), that a completion of a write that is not at the head, or of an erase not in progress, leaves everything as it is
(log 4), and what the fields of a FREE header hold (logs 20 and 26), are the model's choices. -/
def Obligations.HeaderWritesAndErasesReachTheStore : Prop :=
  (∀ (k : Fin 16) (s : State) (c : Instr) (kinds : List HeaderOpKind),
    (c = .claimHeaderWriteComplete k ∧ kinds = [.claim]) ∨ (c = .protectHeaderWriteComplete k ∧ kinds = [.guard]) ∨
      (c = .eraseHeaderWriteComplete k ∧ kinds = [.eraseBegin, .eraseEnd]) →
    ((s.slot k).ops = [] ∨ (∃ op ops, (s.slot k).ops = op :: ops ∧ op.kind ∉ kinds) → exec c s = .next s) ∧
    (∀ op ops, (s.slot k).ops = op :: ops → op.kind ∈ kinds → ∃ t more, exec c s = .next t ∧ s.leaves t [.store, .headers] ∧
      (t.slot k).nv = op.content ∧ (t.slot k).ops = ops ++ more ∧ t.store.nvNext = s.store.nvNext ∧
      ((t.slot k).header = (s.slot k).header ∨ (t.slot k).header.state = .writing) ∧
      (t.slot k).cells = (s.slot k).cells ∧
      (∀ begin rest, ops = begin :: rest → begin.kind = .eraseBegin → (s.slot k).erase = none →
        ∃ n, (t.slot k).erase = some n ∧ 1 ≤ n ∧ n ≤ 16000) ∧
      (ops = [] ∨ (∃ begin rest, ops = begin :: rest ∧ begin.kind ≠ .eraseBegin) ∨ (s.slot k).erase ≠ none →
        (t.slot k).erase = (s.slot k).erase) ∧
      (∀ j, j ≠ k → (t.slot j).nv = (s.slot j).nv ∧ (t.slot j).cells = (s.slot j).cells ∧
        (t.slot j).erase = (s.slot j).erase ∧ (s.slot j).Keeps (t.slot j)) ∧
      (op.kind = .claim → ∀ i, s.hist.current = some i → i.slot = k →
        (s.hist.capture = .committing → i.claimDone = false → ∃ j, t.hist.current = some j ∧ j.claimDone = true ∧
          j.number = i.number ∧ j.buffer = i.buffer ∧ t.hist.capture = .committing ∧
          (i.reused = true → ∃ n, j.op = some (.erase n) ∧ 1 ≤ n ∧ n ≤ 16000) ∧
          (i.reused = false → i.buffer ≠ [] → ∃ n, j.op = some (.cell 0 n) ∧ 1 ≤ n ∧ n ≤ 400) ∧
          (i.reused = false → i.buffer = [] → j.op = some .header)) ∧
        (s.hist.capture = .post → ∃ j, t.hist.current = some j ∧ j.claimDone = true ∧ j.number = i.number)))) ∧
  (∀ (k : Fin 16) (s : State),
    ((s.slot k).erase = none → exec (.eraseComplete k) s = .next s) ∧
    ((s.slot k).erase ≠ none → ∃ t, exec (.eraseComplete k) s = .next t ∧ s.leaves t [.store, .headers] ∧
      (∀ j : Fin 384, (t.slot k).cells.get j = none) ∧ (t.slot k).erase = none ∧ (t.slot k).nv = (s.slot k).nv ∧
      ((t.slot k).header = Header.free ∨ (t.slot k).header.state = .writing) ∧
      (∃ op ∈ (t.slot k).ops, op.kind = .eraseEnd ∧ op.content = Header.free) ∧
      t.store.nvNext = s.store.nvNext ∧
      (s.slot k).ops <+: (t.slot k).ops ∧
      (∀ j, j ≠ k → (t.slot j).cells = (s.slot j).cells ∧ (t.slot j).erase = (s.slot j).erase ∧
        (t.slot j).nv = (s.slot j).nv ∧ (s.slot j).Keeps (t.slot j))))

/-- The commit's stages: the erase blanks the slot's cells, each cell write stores its record with the incident's
number, and the next operation is the next record's cell, or the write of the COMPLETE header with the number of records
(R154, R160). That a completion of a stage that is not in progress leaves everything as it is (log 4), and the times of
the operations, up to 2 ms (log 9), are the model's choices. -/
def Obligations.CommitStagesFollowOneAnother : Prop := ∀ (s : State) (i : Incident), s.hist.current = some i →
  let goesOn := fun (t : State) (k : Nat) => ∃ j, t.hist.current = some j ∧ j.number = i.number ∧
    j.buffer = i.buffer ∧ j.slot = i.slot ∧
    (k < i.buffer.length → ∃ n, j.op = some (.cell k n) ∧ 1 ≤ n ∧ n ≤ 400) ∧
    (i.buffer.length ≤ k → j.op = some .header ∧ ∃ op ∈ (t.slot i.slot).ops, op.kind = .commit ∧
      op.content.state = .complete ∧ op.content.number = i.number ∧ op.content.count = i.buffer.length)
  let others := fun (t : State) => t.store.nvNext = s.store.nvNext ∧
    (∀ j, (t.slot j).nv = (s.slot j).nv ∧ (t.slot j).erase = (s.slot j).erase) ∧
    ∀ j, j ≠ i.slot → (t.slot j).cells = (s.slot j).cells
  (∀ n, i.op = some (.erase n) → s.hist.capture = .committing →
    exec .recordCellWriteComplete s = .next s ∧ ∃ t, exec .commitEraseComplete s = .next t ∧
      s.leaves t [.store] ∧ others t ∧ (∀ j : Fin 384, (t.slot i.slot).cells.get j = none) ∧ goesOn t 0) ∧
  (∀ (k : Fin 384) n r, i.op = some (.cell k.val n) → i.buffer[k.val]? = some r → s.hist.capture = .committing →
    exec .commitEraseComplete s = .next s ∧ ∃ t, exec .recordCellWriteComplete s = .next t ∧
      s.leaves t [.store] ∧ others t ∧ (t.slot i.slot).cells.get k = some ⟨i.number, r⟩ ∧
      (∀ j, j ≠ k → (t.slot i.slot).cells.get j = (s.slot i.slot).cells.get j) ∧ goesOn t (k.val + 1)) ∧
  (i.op = none ∨ i.op = some .header →
    exec .commitEraseComplete s = .next s ∧ exec .recordCellWriteComplete s = .next s)

/-- The completion of the commit's header write puts the COMPLETE header and the next-incident-number into NV and ends
the commit (R160, R161): the capture state is IDLE with no trigger queued, or a new incident, of another number, is
open. The INCIDENT notice of its slot and number is sent or waits, and its NOTICE frame is offered at once where none
waits and the notice side takes it (R161, R184 to R186). The write of that incident's COMPLETE header is the premise.
That the command leaves everything as it is where no such write is at the head is the model's choice (log 4). -/
def Obligations.CommittedHeadersEndTheCommit : Prop := ∀ (s : State),
  (s.hist.current = none → exec .commitHeaderWriteComplete s = .next s) ∧
  (∀ i, s.hist.current = some i →
    ((s.slot i.slot).ops = [] ∨ (∃ op ops, (s.slot i.slot).ops = op :: ops ∧ op.kind ≠ .commit) →
      exec .commitHeaderWriteComplete s = .next s) ∧
    (∀ op ops, (s.slot i.slot).ops = op :: ops → op.kind = .commit → op.content.number = i.number →
      op.content.state = .complete →
      ∃ t, exec .commitHeaderWriteComplete s = .next t ∧ s.leaves t [.store, .headers] ∧
        (t.slot i.slot).nv = op.content ∧ t.store.nvNext = s.hist.nextIncident ∧
        (let x : Notice := ⟨.incident, b8 i.slot.val, i.number, s.clock.time⟩
         s.mgmt.noticeAddress ≠ 0 → s.mgmt.enables.incident = true → t.Notifies x ∧ s.offersFirst t x) ∧
        ((t.slot i.slot).header = op.content ∨ (t.slot i.slot).header.state = .writing) ∧
        (∀ j, (t.slot j).cells = (s.slot j).cells ∧ (j ≠ i.slot ∨ ops = [] → (t.slot j).erase = (s.slot j).erase)) ∧
        (∀ j, j ≠ i.slot → (t.slot j).nv = (s.slot j).nv ∧ (s.slot j).Keeps (t.slot j)) ∧
        (t.hist.capture ≠ .idle → ∃ j, t.hist.current = some j ∧ j.number ≠ i.number) ∧
        (s.hist.scan = none → t.hist.capture = .idle → t.hist.queue = [] ∧ t.hist.current = none)))

/-- An operation of the start-up scan completes: an interrupted slot's header is written INCOMPLETE with its count of
records, or an ERASING slot's cells are blank and its header is written FREE (R173). The next such operation of a later
slot follows, or the scan ends. That the command leaves everything as it is with no scan running (log 4), and the times of
the operations (log 9), and what the fields of a FREE header hold (logs 20 and 26), are the model's choices. -/
def Obligations.ScanRepairsTheStore : Prop := ∀ (s : State),
  (s.hist.scan = none → exec .scanOperationComplete s = .next s) ∧
  (∀ x, s.hist.scan = some x → ∃ t, exec .scanOperationComplete s = .next t ∧ s.leaves t [.store, .recorder, .headers] ∧
    t.hist.pre = s.hist.pre ∧ t.hist.post = s.hist.post ∧ t.hist.policy = s.hist.policy ∧
    t.hist.slidingTrigger = s.hist.slidingTrigger ∧ t.store.nvNext = s.store.nvNext ∧
    (∀ j, j ≠ x.slot → (t.slot j).nv = (s.slot j).nv ∧ (t.slot j).cells = (s.slot j).cells ∧
      (s.slot j).Keeps (t.slot j)) ∧
    (∀ n, x.phase = .writeIncomplete n → (t.slot x.slot).cells = (s.slot x.slot).cells ∧
      (t.slot x.slot).nv = { (s.slot x.slot).header with state := .incomplete, count := n }) ∧
    (x.phase = .erase → (∀ j : Fin 384, (t.slot x.slot).cells.get j = none) ∧
      (t.slot x.slot).nv = (s.slot x.slot).nv ∧
      ∃ n, t.hist.scan = some ⟨x.slot, .writeFree, n⟩ ∧ 1 ≤ n ∧ n ≤ 400) ∧
    (x.phase = .writeFree → (t.slot x.slot).nv = Header.free ∧ (t.slot x.slot).cells = (s.slot x.slot).cells) ∧
    (x.phase ≠ .erase → ∀ y, t.hist.scan = some y → x.slot.val < y.slot.val))

/-! ### Reset -/

/-- Power-on reset samples the straps, sets every block to its reset values, opens application 1 under START_HOLD with
its MODE record first in the ring, and keeps the store as the loss of supply leaves it: the NV headers, the cells of
every slot whose erase was not in progress, and the next-incident-number (R17, R34, R48, R53, R76, R92, R118, R120,
R151, R165, R174, R186, R193). That the commands that wait stay (log 2), that an interrupted write leaves what was before
(log 13), that the header in force stands where an erase ran (log 25), that an interrupted erase leaves each cell blank or
as it was (log 10), that a slide record's period start is 0 (log 26), and that the capture state is IDLE from the reset on,
before the scan has ended (log 49), are the model's. -/
def Obligations.PowerOnResetSetsEveryBlock : Prop := ∀ (pos : BitVec 2) (adr : BitVec 5) (s : State),
  ∃ t, exec (.powerOnReset pos adr) s = .next t ∧ t.pending = s.pending ∧ t.clock.time = 0 ∧ t.clock.sub = 0 ∧
    t.ident.position.val = pos.toNat ∧ t.ident.base = 4 * max 1 (min adr.toNat 30) ∧
    t.link = ⟨Port.reset, Port.reset, 0⟩ ∧ t.cls = Classifier.reset ∧
    t.demand = ⟨0, 0, .startHold, false, .applied, 1, none, .transparent⟩ ∧
    t.slide = Slide.reset ∧ t.air = Air.reset ∧ t.blend = Blend.reset ∧ t.banks = Banks.reset ∧
    t.mgmt = Mgmt.reset ∧ t.restrict.limElectric = 0 ∧ t.restrict.limAir = 0 ∧
    t.restrict.govElectric = 0 ∧ t.restrict.govAir = 0 ∧
    (∀ i, (t.entry i).enable = true ∧ (t.entry i).invert = false ∧ (t.entry i).force = false ∧
      (t.entry i).edge = .raise ∧ (t.entry i).path = (State.reset.entry i).path ∧
      (t.entry i).priority = (State.reset.entry i).priority ∧ (t.entry i).action = (State.reset.entry i).action ∧
      (t.entry i).trigger = (State.reset.entry i).trigger) ∧
    t.hist.ring.head? = some ⟨0, 0, .mode, b8 pos.toNat, [0, 0, 1, 0, 1, 0, 0, 0, 1, 0, 0, 0, 0, 0]⟩ ∧
    t.hist.pre = 128 ∧ t.hist.post = 128 ∧ t.hist.policy = .overwriteOldest ∧ t.hist.slidingTrigger = true ∧
    t.hist.capture = .idle ∧ t.hist.current = none ∧ t.hist.queue = [] ∧ t.hist.cursor = none ∧
    t.store.nvNext = s.store.nvNext ∧
    ∀ k, (t.slot k).ops = [] ∧ (t.slot k).erase = none ∧ (t.slot k).header = (t.slot k).nv ∧
      (t.slot k).nv = (if (s.slot k).erase.isSome then (s.slot k).header else (s.slot k).nv) ∧
      (s.erasing k = false → (t.slot k).cells = (s.slot k).cells) ∧
      (∀ j, (t.slot k).cells.get j = (s.slot k).cells.get j ∨ (t.slot k).cells.get j = none)

/-! ### The blend -/

/-- Stages 1 to 5, in every evaluation in ACTIVE mode. The bogie demand effort is the floor of L times F_full over
1000, with L at 1000 under START_HOLD and PENALTY, whatever the independent level and the emergency latch (R97). The
curve gives its first cap below its first point, its last cap from its last point on, and between two points the value on
the line, its quotient rounded toward zero (R98). An own configured axle's capability is the floor of the curve's value times Re over 1000 in service, 0 out of service, so that an
ELECTRIC restriction of action 0 leaves none (R99). The equal share is the floor of the demand effort over n, and what it
leaves, less than n, reaches the air; the unslid allotment is the smaller of capability and share, and the target is the
allotment by the slide factor, the allotment itself in CLEAR and SUSPECT (R100), 0 in an emergency. The shortfall is what
the achieved effort lacks of the allotment where that is more than T_short, of an axle in service, CLEAR or SUSPECT, with a
FRESH converter, and 0 otherwise (R101). An axle that is not configured has none of these. -/
def Obligations.StagesOneToFiveAreFormed : Prop := ∀ (b : Tables) (noHold : Bool) (s : State),
  s.banks.active = some b → s.demand.mode = .active →
  let w := (s.evaluate noHold).blend.work
  let l := match s.demand.hold with
    | .startHold => 1000
    | .penalty => 1000
    | .none => s.demand.lLast
    | .held => s.demand.lLast
  let p := fun (k : Fin 16) => b.curve.points.get k
  let claims := fun (i : Fin 3) => s.inService i = true ∧ ((s.axle i).state = .clear ∨ (s.axle i).state = .suspect) ∧
    ∃ e, s.converterOf i = some e ∧ e.state = .fresh
  w.fDem = l * b.bogie.fFull / 1000 ∧
  (s.demand.lLast ≤ 1000 → b.bogie.fFull ≤ 8000 → w.fDem ≤ 8000) ∧
  (∀ d e, ((s.withDemand { s.demand with iLast := d, emergency := e }).blendWork b).fDem = w.fDem) ∧
  (∀ i, s.inService i = true ↔ i.val < b.bogie.n ∧ (s.axle i).state ≠ .isolated ∧ (s.axle i).state ≠ .unsensed ∧
    ∃ e, s.converterOf i = some e ∧ (e.state = .fresh ∨ e.state = .late) ∧
      (e.lastStatus = .ok ∨ e.lastStatus = .derated)) ∧
  (2 ≤ b.curve.count → b.curve.count ≤ 16 → (∀ j k : Fin 16, j < k → k.val < b.curve.count → (p j).speed < (p k).speed) →
    (s.slide.vref < (p 0).speed → w.c = (p 0).cap) ∧
    (∀ k : Fin 16, k.val + 1 = b.curve.count → (p k).speed ≤ s.slide.vref → w.c = (p k).cap) ∧
    (∀ j k : Fin 16, k.val = j.val + 1 → k.val < b.curve.count → (p j).speed ≤ s.slide.vref →
      s.slide.vref < (p k).speed →
      (w.c : Int) = (p j).cap + Int.tdiv (((p k).cap - (p j).cap) * (s.slide.vref - (p j).speed))
        ((p k).speed - (p j).speed) ∧
      min (p j).cap (p k).cap ≤ w.c ∧ w.c ≤ max (p j).cap (p k).cap) ∧
    (∀ k : Fin 16, k.val < b.curve.count → s.slide.vref = (p k).speed → w.c = (p k).cap) ∧
    ((∀ k : Fin 16, k.val < b.curve.count → (p k).cap ≤ 2000) → w.c ≤ 2000)) ∧
  (∀ i, (s.inService i = true → (w.axles.get i).capability = w.c * s.re / 1000) ∧
    (s.inService i = false → (w.axles.get i).capability = 0)) ∧
  (s.restrict.action s.restrict.govElectric = some 0 → ∀ i, (w.axles.get i).capability = 0) ∧
  w.d = w.fDem / b.bogie.n ∧
  w.sumU = (w.axles.get 0).allotment + (w.axles.get 1).allotment + (w.axles.get 2).allotment ∧
  (1 ≤ b.bogie.n → b.bogie.n ≤ 3 → w.sumU ≤ b.bogie.n * w.d ∧ b.bogie.n * w.d ≤ w.fDem ∧
    w.fDem - b.bogie.n * w.d ≤ b.bogie.n - 1 ∧ w.fDem - b.bogie.n * w.d ≤ w.fAir ∧
    w.fAir = w.fDem - w.sumU + ((w.axles.get 0).short + (w.axles.get 1).short + (w.axles.get 2).short)) ∧
  (∀ i : Fin 3, i.val < b.bogie.n →
    (w.axles.get i).allotment = min (w.axles.get i).capability w.d ∧
    ((s.axle i).state = .isolated ∨ (s.axle i).state = .unsensed → (w.axles.get i).allotment = 0) ∧
    (w.axles.get i).target =
      (if s.demand.emergency then 0 else (w.axles.get i).allotment * (s.axle i).factor / 1000) ∧
    ((s.axle i).Law → (s.axle i).state = .clear ∨ (s.axle i).state = .suspect → s.demand.emergency = false →
      (w.axles.get i).target = (w.axles.get i).allotment) ∧
    (claims i → (s.out i).achieved + b.bogie.tShort < (w.axles.get i).allotment →
      (w.axles.get i).short = (w.axles.get i).allotment - (s.out i).achieved) ∧
    (¬claims i ∨ (w.axles.get i).allotment ≤ (s.out i).achieved + b.bogie.tShort → (w.axles.get i).short = 0) ∧
    (w.axles.get i).short ≤ (w.axles.get i).allotment) ∧
  (∀ i : Fin 3, b.bogie.n ≤ i.val →
    (w.axles.get i).allotment = 0 ∧ (w.axles.get i).target = 0 ∧ (w.axles.get i).short = 0)

/-- The share law: in every evaluation the allotments sum to at most the demand, and the air effort is the demand less
the allotments plus the shortfalls, between 0 and the demand; it is the remainder of the equal split, the capability
shortfalls and the achieved shortfalls of the configured axles together (R102). -/
def Obligations.TheShareLawHolds : Prop := ∀ (b : Tables) (noHold : Bool) (s : State),
  s.banks.active = some b → s.demand.mode = .active → 1 ≤ b.bogie.n → b.bogie.n ≤ 3 →
  let w := (s.evaluate noHold).blend.work
  let total := fun (f : Fin 3 → Nat) => (if 0 < b.bogie.n then f 0 else 0) + (if 1 < b.bogie.n then f 1 else 0) +
    (if 2 < b.bogie.n then f 2 else 0)
  let sumShort := total (fun i => (w.axles.get i).short)
  w.sumU = total (fun i => (w.axles.get i).allotment) ∧ w.sumU ≤ w.fDem ∧
  (w.fAir : Int) = w.fDem - w.sumU + sumShort ∧ w.fAir ≤ w.fDem ∧
  (∀ i, (w.axles.get i).allotment ≤ w.d ∧ (w.axles.get i).short ≤ (w.axles.get i).allotment) ∧
  w.fAir = (w.fDem - b.bogie.n * w.d) + total (fun i => w.d - (w.axles.get i).allotment) + sumShort

/-- Stages 7 and 8, in every evaluation in ACTIVE mode. The automatic part is 0 for no air effort, else p_base and the air
effort by G_air, at most p_max; the independent part is I by p_indep_full; p_set is the larger, at most the action of the
entry that governs the AIR path, and p_emerg under the emergency latch, whatever that cap (R103, R104). The sequencer takes
p_set as its standing setpoint; a p_set of 0 takes it to NORMAL with its timers cancelled, a dump in progress adding its
time to the dump time used, at most the budget (log 24); in REAPPLY a p_set at or below the reapply level takes it to
NORMAL; otherwise it stays (R84). p_out is p_set in NORMAL, 0 in DUMP, the held or the reapply level in HOLD or REAPPLY, at
most p_set, with the state as phase and the latch as EMERGENCY flag (R77), so that it keeps its three bounds (R104). A
change of p_out cancels the mismatch timer (R114), and a change of the sequencer's state is the first record of the
evaluation (R86). -/
def Obligations.SetpointAndOutputAreFormed : Prop := ∀ (b : Tables) (noHold : Bool) (s : State),
  s.banks.active = some b → s.demand.mode = .active →
  let t := s.evaluate noHold
  let w := t.blend.work
  let o := t.blend.pressure.content
  let kept := 0 < w.pSet ∧ (s.air.state = .reapply → s.air.reapply < w.pSet)
  w.pAuto = (if w.fAir = 0 then 0 else min b.bogie.pMax (b.bogie.pBase + w.fAir * b.bogie.gAir / 1000)) ∧
  w.pInd = s.demand.iLast * b.bogie.pIndepFull / 1000 ∧
  (s.demand.emergency = true → w.pSet = b.bogie.pEmerg) ∧
  (s.demand.emergency = false → s.restrict.govAir = 0 → w.pSet = max w.pAuto w.pInd) ∧
  (∀ k : Fin 20, s.demand.emergency = false → s.restrict.govAir = k.val + 1 →
    w.pSet = min (max w.pAuto w.pInd) (s.entry k).action ∧ o.pressure ≤ (s.entry k).action) ∧
  t.air.pSet = w.pSet ∧ t.air.exhausted = s.air.exhausted ∧ t.air.held = s.air.held ∧ t.air.reapply = s.air.reapply ∧
  (w.pSet = 0 → t.air.state = .normal ∧ t.air.dumpTimer = none ∧ t.air.holdTimer = none ∧ t.air.stepTimer = none ∧
    (s.air.state = .dump →
      t.air.used = min (s.air.used + (s.clock.time - s.air.dumpStart).toNat) b.supervision.dumpBudget)) ∧
  (0 < w.pSet → s.air.state = .reapply → w.pSet ≤ s.air.reapply → t.air.state = .normal ∧ t.air.stepTimer = none) ∧
  (kept → t.air.state = s.air.state ∧ t.air.dumpTimer = s.air.dumpTimer ∧ t.air.holdTimer = s.air.holdTimer ∧
    t.air.stepTimer = s.air.stepTimer) ∧
  (0 < w.pSet ∨ s.air.state ≠ .dump → t.air.used = s.air.used) ∧
  o.pressure = (match t.air.state with
    | .normal => w.pSet
    | .dump => 0
    | .hold => min s.air.held w.pSet
    | .reapply => min s.air.reapply w.pSet) ∧
  o.phase = t.air.state ∧ o.emergency = s.demand.emergency ∧ o.pressure ≤ w.pSet ∧
  (b.bogie.Ordered → s.demand.iLast ≤ 1000 →
    o.pressure ≤ b.bogie.pEmerg ∧ (s.demand.emergency = false → o.pressure ≤ b.bogie.pMax)) ∧
  t.air.mismatchTimer =
    (if o.pressure = s.blend.pressure.content.pressure then s.air.mismatchTimer else none) ∧
  (s.RingLaw → t.air.state ≠ s.air.state → s.writes t [⟨s.clock.time, s.hist.nextSeq, .air, b8 s.ident.position.val,
    [s.air.state.code, t.air.state.code] ++ be16 w.pSet ++ be16 o.pressure ++ be16 t.air.used ++
      [0, 0, 0, 0, 0, 0]⟩])

/-- In every evaluation in ACTIVE mode each own configured axle has the target of stage 4 (R100), 0 in an emergency (R104);
stage 9 holds the axle that R105 says at its effort, with its target pending, and gives every other its target; the handover timer starts at the first hold, for T_lead, with the efforts as start values, runs on,
or is cut short with every pending value dropped (R106, R107), and after its expiry no axle is held (R108). Then each output
with a bound entry whose content is not yet sent or differs from what was last sent is offered, and no other is (R110,
R111), and a BLEND record is written where an effort or p_out differs from the previous evaluation's, or there was none,
and none otherwise (R115). -/
def Obligations.EvaluationsOfferTheChangedOutputs : Prop := ∀ (b : Tables) (noHold : Bool) (s : State),
  s.banks.active = some b → s.demand.mode = .active →
  let t := s.evaluate noHold
  let w := t.blend.work
  let holds := fun (i : Fin 3) => noHold = false ∧ s.Holds w i
  let cut := noHold = true ∨ (s.blend.handover ≠ none ∧ (w.fDem < s.blend.fPrev ∨ s.demand.emergency = true))
  let same := ∃ v, s.blend.prev = some v ∧ v.pOut = t.blend.pressure.content.pressure ∧
    ∀ i : Fin 3, i.val < b.bogie.n → v.efforts.get i = (t.out i).content.effort
  (∀ i : Fin 3, i.val < b.bogie.n →
    (w.axles.get i).target =
      (if s.demand.emergency then 0 else (w.axles.get i).allotment * (s.axle i).factor / 1000) ∧
    (holds i → (t.out i).content.effort = (s.out i).content.effort ∧
      (t.out i).pendingEffort = some (w.axles.get i).target) ∧
    (¬holds i → (t.out i).content.effort = (w.axles.get i).target ∧ (t.out i).pendingEffort = none) ∧
    ((t.out i).content.slide = true ↔ (s.axle i).state = .sliding ∨ (s.axle i).state = .recovering)) ∧
  (∀ i : Fin 3, b.bogie.n ≤ i.val → (t.out i).content = ⟨0, false⟩ ∧ (t.out i).pendingEffort = none) ∧
  t.blend.fPrev = w.fDem ∧
  (cut → t.blend.handover = none) ∧
  (¬cut → s.blend.handover = none → (∀ i, ¬holds i) → t.blend.handover = none) ∧
  (¬cut → s.blend.handover = none → (∃ i, holds i) →
    t.blend.handover = some ⟨s.clock.time, b.supervision.tLead⟩ ∧
    ∀ i : Fin 3, i.val < b.bogie.n → (t.out i).start = (t.out i).content.effort) ∧
  (¬cut → s.blend.handover ≠ none → t.blend.handover = s.blend.handover ∧ ∀ i, (t.out i).start = (s.out i).start) ∧
  (∀ i, s.SendsEffort t b i) ∧ s.SendsPressure t b ∧
  (¬same → ∃ r, t.hist.ring.getLast? = some r ∧ r.time = s.clock.time ∧ r.seq + 1 = t.hist.nextSeq ∧
    r.kind = .blend ∧ r.subject = b8 s.ident.position.val ∧
    r.data = be16 w.fDem ++ be16 w.sumU ++ be16 w.fAir ++ be16 (t.blend.pressure.content.pressure % 1024 +
        1024 * b.bogie.n + (if t.blend.handover = none then 0 else 32768)) ++
      be16 (t.out 0).content.effort ++ be16 (t.out 1).content.effort ++ be16 (t.out 2).content.effort) ∧
  (same → t.air.state = s.air.state → t.hist = s.hist)
end

