-- ==== Sys2Proof/Laws/State.lean ====
section
/-!
SUPPORT. What replacing one block of the state does to each block: one lemma for each field and each update,
so that no later proof unfolds a record update.
-/

namespace Sys2Proof.Machine

@[simp] theorem State.withPending_pending (s : State) (x : List Instr) : (s.withPending x).pending = x := rfl
@[simp] theorem State.withPending_clock (s : State) (x : List Instr) : (s.withPending x).clock = s.clock := rfl
@[simp] theorem State.withPending_ident (s : State) (x : List Instr) : (s.withPending x).ident = s.ident := rfl
@[simp] theorem State.withPending_link (s : State) (x : List Instr) : (s.withPending x).link = s.link := rfl
@[simp] theorem State.withPending_cls (s : State) (x : List Instr) : (s.withPending x).cls = s.cls := rfl
@[simp] theorem State.withPending_demand (s : State) (x : List Instr) : (s.withPending x).demand = s.demand := rfl
@[simp] theorem State.withPending_slide (s : State) (x : List Instr) : (s.withPending x).slide = s.slide := rfl
@[simp] theorem State.withPending_air (s : State) (x : List Instr) : (s.withPending x).air = s.air := rfl
@[simp] theorem State.withPending_blend (s : State) (x : List Instr) : (s.withPending x).blend = s.blend := rfl
@[simp] theorem State.withPending_restrict (s : State) (x : List Instr) : (s.withPending x).restrict = s.restrict := rfl
@[simp] theorem State.withPending_banks (s : State) (x : List Instr) : (s.withPending x).banks = s.banks := rfl
@[simp] theorem State.withPending_hist (s : State) (x : List Instr) : (s.withPending x).hist = s.hist := rfl
@[simp] theorem State.withPending_store (s : State) (x : List Instr) : (s.withPending x).store = s.store := rfl
@[simp] theorem State.withPending_mgmt (s : State) (x : List Instr) : (s.withPending x).mgmt = s.mgmt := rfl
@[simp] theorem State.withPending_work (s : State) (x : List Instr) : (s.withPending x).work = s.work := rfl

@[simp] theorem State.withClock_pending (s : State) (x : Clock) : (s.withClock x).pending = s.pending := rfl
@[simp] theorem State.withClock_clock (s : State) (x : Clock) : (s.withClock x).clock = x := rfl
@[simp] theorem State.withClock_ident (s : State) (x : Clock) : (s.withClock x).ident = s.ident := rfl
@[simp] theorem State.withClock_link (s : State) (x : Clock) : (s.withClock x).link = s.link := rfl
@[simp] theorem State.withClock_cls (s : State) (x : Clock) : (s.withClock x).cls = s.cls := rfl
@[simp] theorem State.withClock_demand (s : State) (x : Clock) : (s.withClock x).demand = s.demand := rfl
@[simp] theorem State.withClock_slide (s : State) (x : Clock) : (s.withClock x).slide = s.slide := rfl
@[simp] theorem State.withClock_air (s : State) (x : Clock) : (s.withClock x).air = s.air := rfl
@[simp] theorem State.withClock_blend (s : State) (x : Clock) : (s.withClock x).blend = s.blend := rfl
@[simp] theorem State.withClock_restrict (s : State) (x : Clock) : (s.withClock x).restrict = s.restrict := rfl
@[simp] theorem State.withClock_banks (s : State) (x : Clock) : (s.withClock x).banks = s.banks := rfl
@[simp] theorem State.withClock_hist (s : State) (x : Clock) : (s.withClock x).hist = s.hist := rfl
@[simp] theorem State.withClock_store (s : State) (x : Clock) : (s.withClock x).store = s.store := rfl
@[simp] theorem State.withClock_mgmt (s : State) (x : Clock) : (s.withClock x).mgmt = s.mgmt := rfl
@[simp] theorem State.withClock_work (s : State) (x : Clock) : (s.withClock x).work = s.work := rfl

@[simp] theorem State.withLink_pending (s : State) (x : Link) : (s.withLink x).pending = s.pending := rfl
@[simp] theorem State.withLink_clock (s : State) (x : Link) : (s.withLink x).clock = s.clock := rfl
@[simp] theorem State.withLink_ident (s : State) (x : Link) : (s.withLink x).ident = s.ident := rfl
@[simp] theorem State.withLink_link (s : State) (x : Link) : (s.withLink x).link = x := rfl
@[simp] theorem State.withLink_cls (s : State) (x : Link) : (s.withLink x).cls = s.cls := rfl
@[simp] theorem State.withLink_demand (s : State) (x : Link) : (s.withLink x).demand = s.demand := rfl
@[simp] theorem State.withLink_slide (s : State) (x : Link) : (s.withLink x).slide = s.slide := rfl
@[simp] theorem State.withLink_air (s : State) (x : Link) : (s.withLink x).air = s.air := rfl
@[simp] theorem State.withLink_blend (s : State) (x : Link) : (s.withLink x).blend = s.blend := rfl
@[simp] theorem State.withLink_restrict (s : State) (x : Link) : (s.withLink x).restrict = s.restrict := rfl
@[simp] theorem State.withLink_banks (s : State) (x : Link) : (s.withLink x).banks = s.banks := rfl
@[simp] theorem State.withLink_hist (s : State) (x : Link) : (s.withLink x).hist = s.hist := rfl
@[simp] theorem State.withLink_store (s : State) (x : Link) : (s.withLink x).store = s.store := rfl
@[simp] theorem State.withLink_mgmt (s : State) (x : Link) : (s.withLink x).mgmt = s.mgmt := rfl
@[simp] theorem State.withLink_work (s : State) (x : Link) : (s.withLink x).work = s.work := rfl

@[simp] theorem State.withCls_pending (s : State) (x : Classifier) : (s.withCls x).pending = s.pending := rfl
@[simp] theorem State.withCls_clock (s : State) (x : Classifier) : (s.withCls x).clock = s.clock := rfl
@[simp] theorem State.withCls_ident (s : State) (x : Classifier) : (s.withCls x).ident = s.ident := rfl
@[simp] theorem State.withCls_link (s : State) (x : Classifier) : (s.withCls x).link = s.link := rfl
@[simp] theorem State.withCls_cls (s : State) (x : Classifier) : (s.withCls x).cls = x := rfl
@[simp] theorem State.withCls_demand (s : State) (x : Classifier) : (s.withCls x).demand = s.demand := rfl
@[simp] theorem State.withCls_slide (s : State) (x : Classifier) : (s.withCls x).slide = s.slide := rfl
@[simp] theorem State.withCls_air (s : State) (x : Classifier) : (s.withCls x).air = s.air := rfl
@[simp] theorem State.withCls_blend (s : State) (x : Classifier) : (s.withCls x).blend = s.blend := rfl
@[simp] theorem State.withCls_restrict (s : State) (x : Classifier) : (s.withCls x).restrict = s.restrict := rfl
@[simp] theorem State.withCls_banks (s : State) (x : Classifier) : (s.withCls x).banks = s.banks := rfl
@[simp] theorem State.withCls_hist (s : State) (x : Classifier) : (s.withCls x).hist = s.hist := rfl
@[simp] theorem State.withCls_store (s : State) (x : Classifier) : (s.withCls x).store = s.store := rfl
@[simp] theorem State.withCls_mgmt (s : State) (x : Classifier) : (s.withCls x).mgmt = s.mgmt := rfl
@[simp] theorem State.withCls_work (s : State) (x : Classifier) : (s.withCls x).work = s.work := rfl

@[simp] theorem State.withDemand_pending (s : State) (x : Demand) : (s.withDemand x).pending = s.pending := rfl
@[simp] theorem State.withDemand_clock (s : State) (x : Demand) : (s.withDemand x).clock = s.clock := rfl
@[simp] theorem State.withDemand_ident (s : State) (x : Demand) : (s.withDemand x).ident = s.ident := rfl
@[simp] theorem State.withDemand_link (s : State) (x : Demand) : (s.withDemand x).link = s.link := rfl
@[simp] theorem State.withDemand_cls (s : State) (x : Demand) : (s.withDemand x).cls = s.cls := rfl
@[simp] theorem State.withDemand_demand (s : State) (x : Demand) : (s.withDemand x).demand = x := rfl
@[simp] theorem State.withDemand_slide (s : State) (x : Demand) : (s.withDemand x).slide = s.slide := rfl
@[simp] theorem State.withDemand_air (s : State) (x : Demand) : (s.withDemand x).air = s.air := rfl
@[simp] theorem State.withDemand_blend (s : State) (x : Demand) : (s.withDemand x).blend = s.blend := rfl
@[simp] theorem State.withDemand_restrict (s : State) (x : Demand) : (s.withDemand x).restrict = s.restrict := rfl
@[simp] theorem State.withDemand_banks (s : State) (x : Demand) : (s.withDemand x).banks = s.banks := rfl
@[simp] theorem State.withDemand_hist (s : State) (x : Demand) : (s.withDemand x).hist = s.hist := rfl
@[simp] theorem State.withDemand_store (s : State) (x : Demand) : (s.withDemand x).store = s.store := rfl
@[simp] theorem State.withDemand_mgmt (s : State) (x : Demand) : (s.withDemand x).mgmt = s.mgmt := rfl
@[simp] theorem State.withDemand_work (s : State) (x : Demand) : (s.withDemand x).work = s.work := rfl

@[simp] theorem State.withSlide_pending (s : State) (x : Slide) : (s.withSlide x).pending = s.pending := rfl
@[simp] theorem State.withSlide_clock (s : State) (x : Slide) : (s.withSlide x).clock = s.clock := rfl
@[simp] theorem State.withSlide_ident (s : State) (x : Slide) : (s.withSlide x).ident = s.ident := rfl
@[simp] theorem State.withSlide_link (s : State) (x : Slide) : (s.withSlide x).link = s.link := rfl
@[simp] theorem State.withSlide_cls (s : State) (x : Slide) : (s.withSlide x).cls = s.cls := rfl
@[simp] theorem State.withSlide_demand (s : State) (x : Slide) : (s.withSlide x).demand = s.demand := rfl
@[simp] theorem State.withSlide_slide (s : State) (x : Slide) : (s.withSlide x).slide = x := rfl
@[simp] theorem State.withSlide_air (s : State) (x : Slide) : (s.withSlide x).air = s.air := rfl
@[simp] theorem State.withSlide_blend (s : State) (x : Slide) : (s.withSlide x).blend = s.blend := rfl
@[simp] theorem State.withSlide_restrict (s : State) (x : Slide) : (s.withSlide x).restrict = s.restrict := rfl
@[simp] theorem State.withSlide_banks (s : State) (x : Slide) : (s.withSlide x).banks = s.banks := rfl
@[simp] theorem State.withSlide_hist (s : State) (x : Slide) : (s.withSlide x).hist = s.hist := rfl
@[simp] theorem State.withSlide_store (s : State) (x : Slide) : (s.withSlide x).store = s.store := rfl
@[simp] theorem State.withSlide_mgmt (s : State) (x : Slide) : (s.withSlide x).mgmt = s.mgmt := rfl
@[simp] theorem State.withSlide_work (s : State) (x : Slide) : (s.withSlide x).work = s.work := rfl

@[simp] theorem State.withAir_pending (s : State) (x : Air) : (s.withAir x).pending = s.pending := rfl
@[simp] theorem State.withAir_clock (s : State) (x : Air) : (s.withAir x).clock = s.clock := rfl
@[simp] theorem State.withAir_ident (s : State) (x : Air) : (s.withAir x).ident = s.ident := rfl
@[simp] theorem State.withAir_link (s : State) (x : Air) : (s.withAir x).link = s.link := rfl
@[simp] theorem State.withAir_cls (s : State) (x : Air) : (s.withAir x).cls = s.cls := rfl
@[simp] theorem State.withAir_demand (s : State) (x : Air) : (s.withAir x).demand = s.demand := rfl
@[simp] theorem State.withAir_slide (s : State) (x : Air) : (s.withAir x).slide = s.slide := rfl
@[simp] theorem State.withAir_air (s : State) (x : Air) : (s.withAir x).air = x := rfl
@[simp] theorem State.withAir_blend (s : State) (x : Air) : (s.withAir x).blend = s.blend := rfl
@[simp] theorem State.withAir_restrict (s : State) (x : Air) : (s.withAir x).restrict = s.restrict := rfl
@[simp] theorem State.withAir_banks (s : State) (x : Air) : (s.withAir x).banks = s.banks := rfl
@[simp] theorem State.withAir_hist (s : State) (x : Air) : (s.withAir x).hist = s.hist := rfl
@[simp] theorem State.withAir_store (s : State) (x : Air) : (s.withAir x).store = s.store := rfl
@[simp] theorem State.withAir_mgmt (s : State) (x : Air) : (s.withAir x).mgmt = s.mgmt := rfl
@[simp] theorem State.withAir_work (s : State) (x : Air) : (s.withAir x).work = s.work := rfl

@[simp] theorem State.withBlend_pending (s : State) (x : Blend) : (s.withBlend x).pending = s.pending := rfl
@[simp] theorem State.withBlend_clock (s : State) (x : Blend) : (s.withBlend x).clock = s.clock := rfl
@[simp] theorem State.withBlend_ident (s : State) (x : Blend) : (s.withBlend x).ident = s.ident := rfl
@[simp] theorem State.withBlend_link (s : State) (x : Blend) : (s.withBlend x).link = s.link := rfl
@[simp] theorem State.withBlend_cls (s : State) (x : Blend) : (s.withBlend x).cls = s.cls := rfl
@[simp] theorem State.withBlend_demand (s : State) (x : Blend) : (s.withBlend x).demand = s.demand := rfl
@[simp] theorem State.withBlend_slide (s : State) (x : Blend) : (s.withBlend x).slide = s.slide := rfl
@[simp] theorem State.withBlend_air (s : State) (x : Blend) : (s.withBlend x).air = s.air := rfl
@[simp] theorem State.withBlend_blend (s : State) (x : Blend) : (s.withBlend x).blend = x := rfl
@[simp] theorem State.withBlend_restrict (s : State) (x : Blend) : (s.withBlend x).restrict = s.restrict := rfl
@[simp] theorem State.withBlend_banks (s : State) (x : Blend) : (s.withBlend x).banks = s.banks := rfl
@[simp] theorem State.withBlend_hist (s : State) (x : Blend) : (s.withBlend x).hist = s.hist := rfl
@[simp] theorem State.withBlend_store (s : State) (x : Blend) : (s.withBlend x).store = s.store := rfl
@[simp] theorem State.withBlend_mgmt (s : State) (x : Blend) : (s.withBlend x).mgmt = s.mgmt := rfl
@[simp] theorem State.withBlend_work (s : State) (x : Blend) : (s.withBlend x).work = s.work := rfl

@[simp] theorem State.withRestrict_pending (s : State) (x : Restrict) : (s.withRestrict x).pending = s.pending := rfl
@[simp] theorem State.withRestrict_clock (s : State) (x : Restrict) : (s.withRestrict x).clock = s.clock := rfl
@[simp] theorem State.withRestrict_ident (s : State) (x : Restrict) : (s.withRestrict x).ident = s.ident := rfl
@[simp] theorem State.withRestrict_link (s : State) (x : Restrict) : (s.withRestrict x).link = s.link := rfl
@[simp] theorem State.withRestrict_cls (s : State) (x : Restrict) : (s.withRestrict x).cls = s.cls := rfl
@[simp] theorem State.withRestrict_demand (s : State) (x : Restrict) : (s.withRestrict x).demand = s.demand := rfl
@[simp] theorem State.withRestrict_slide (s : State) (x : Restrict) : (s.withRestrict x).slide = s.slide := rfl
@[simp] theorem State.withRestrict_air (s : State) (x : Restrict) : (s.withRestrict x).air = s.air := rfl
@[simp] theorem State.withRestrict_blend (s : State) (x : Restrict) : (s.withRestrict x).blend = s.blend := rfl
@[simp] theorem State.withRestrict_restrict (s : State) (x : Restrict) : (s.withRestrict x).restrict = x := rfl
@[simp] theorem State.withRestrict_banks (s : State) (x : Restrict) : (s.withRestrict x).banks = s.banks := rfl
@[simp] theorem State.withRestrict_hist (s : State) (x : Restrict) : (s.withRestrict x).hist = s.hist := rfl
@[simp] theorem State.withRestrict_store (s : State) (x : Restrict) : (s.withRestrict x).store = s.store := rfl
@[simp] theorem State.withRestrict_mgmt (s : State) (x : Restrict) : (s.withRestrict x).mgmt = s.mgmt := rfl
@[simp] theorem State.withRestrict_work (s : State) (x : Restrict) : (s.withRestrict x).work = s.work := rfl

@[simp] theorem State.withBanks_pending (s : State) (x : Banks) : (s.withBanks x).pending = s.pending := rfl
@[simp] theorem State.withBanks_clock (s : State) (x : Banks) : (s.withBanks x).clock = s.clock := rfl
@[simp] theorem State.withBanks_ident (s : State) (x : Banks) : (s.withBanks x).ident = s.ident := rfl
@[simp] theorem State.withBanks_link (s : State) (x : Banks) : (s.withBanks x).link = s.link := rfl
@[simp] theorem State.withBanks_cls (s : State) (x : Banks) : (s.withBanks x).cls = s.cls := rfl
@[simp] theorem State.withBanks_demand (s : State) (x : Banks) : (s.withBanks x).demand = s.demand := rfl
@[simp] theorem State.withBanks_slide (s : State) (x : Banks) : (s.withBanks x).slide = s.slide := rfl
@[simp] theorem State.withBanks_air (s : State) (x : Banks) : (s.withBanks x).air = s.air := rfl
@[simp] theorem State.withBanks_blend (s : State) (x : Banks) : (s.withBanks x).blend = s.blend := rfl
@[simp] theorem State.withBanks_restrict (s : State) (x : Banks) : (s.withBanks x).restrict = s.restrict := rfl
@[simp] theorem State.withBanks_banks (s : State) (x : Banks) : (s.withBanks x).banks = x := rfl
@[simp] theorem State.withBanks_hist (s : State) (x : Banks) : (s.withBanks x).hist = s.hist := rfl
@[simp] theorem State.withBanks_store (s : State) (x : Banks) : (s.withBanks x).store = s.store := rfl
@[simp] theorem State.withBanks_mgmt (s : State) (x : Banks) : (s.withBanks x).mgmt = s.mgmt := rfl
@[simp] theorem State.withBanks_work (s : State) (x : Banks) : (s.withBanks x).work = s.work := rfl

@[simp] theorem State.withHist_pending (s : State) (x : Recorder) : (s.withHist x).pending = s.pending := rfl
@[simp] theorem State.withHist_clock (s : State) (x : Recorder) : (s.withHist x).clock = s.clock := rfl
@[simp] theorem State.withHist_ident (s : State) (x : Recorder) : (s.withHist x).ident = s.ident := rfl
@[simp] theorem State.withHist_link (s : State) (x : Recorder) : (s.withHist x).link = s.link := rfl
@[simp] theorem State.withHist_cls (s : State) (x : Recorder) : (s.withHist x).cls = s.cls := rfl
@[simp] theorem State.withHist_demand (s : State) (x : Recorder) : (s.withHist x).demand = s.demand := rfl
@[simp] theorem State.withHist_slide (s : State) (x : Recorder) : (s.withHist x).slide = s.slide := rfl
@[simp] theorem State.withHist_air (s : State) (x : Recorder) : (s.withHist x).air = s.air := rfl
@[simp] theorem State.withHist_blend (s : State) (x : Recorder) : (s.withHist x).blend = s.blend := rfl
@[simp] theorem State.withHist_restrict (s : State) (x : Recorder) : (s.withHist x).restrict = s.restrict := rfl
@[simp] theorem State.withHist_banks (s : State) (x : Recorder) : (s.withHist x).banks = s.banks := rfl
@[simp] theorem State.withHist_hist (s : State) (x : Recorder) : (s.withHist x).hist = x := rfl
@[simp] theorem State.withHist_store (s : State) (x : Recorder) : (s.withHist x).store = s.store := rfl
@[simp] theorem State.withHist_mgmt (s : State) (x : Recorder) : (s.withHist x).mgmt = s.mgmt := rfl
@[simp] theorem State.withHist_work (s : State) (x : Recorder) : (s.withHist x).work = s.work := rfl

@[simp] theorem State.withStore_pending (s : State) (x : Store) : (s.withStore x).pending = s.pending := rfl
@[simp] theorem State.withStore_clock (s : State) (x : Store) : (s.withStore x).clock = s.clock := rfl
@[simp] theorem State.withStore_ident (s : State) (x : Store) : (s.withStore x).ident = s.ident := rfl
@[simp] theorem State.withStore_link (s : State) (x : Store) : (s.withStore x).link = s.link := rfl
@[simp] theorem State.withStore_cls (s : State) (x : Store) : (s.withStore x).cls = s.cls := rfl
@[simp] theorem State.withStore_demand (s : State) (x : Store) : (s.withStore x).demand = s.demand := rfl
@[simp] theorem State.withStore_slide (s : State) (x : Store) : (s.withStore x).slide = s.slide := rfl
@[simp] theorem State.withStore_air (s : State) (x : Store) : (s.withStore x).air = s.air := rfl
@[simp] theorem State.withStore_blend (s : State) (x : Store) : (s.withStore x).blend = s.blend := rfl
@[simp] theorem State.withStore_restrict (s : State) (x : Store) : (s.withStore x).restrict = s.restrict := rfl
@[simp] theorem State.withStore_banks (s : State) (x : Store) : (s.withStore x).banks = s.banks := rfl
@[simp] theorem State.withStore_hist (s : State) (x : Store) : (s.withStore x).hist = s.hist := rfl
@[simp] theorem State.withStore_store (s : State) (x : Store) : (s.withStore x).store = x := rfl
@[simp] theorem State.withStore_mgmt (s : State) (x : Store) : (s.withStore x).mgmt = s.mgmt := rfl
@[simp] theorem State.withStore_work (s : State) (x : Store) : (s.withStore x).work = s.work := rfl

@[simp] theorem State.withMgmt_pending (s : State) (x : Mgmt) : (s.withMgmt x).pending = s.pending := rfl
@[simp] theorem State.withMgmt_clock (s : State) (x : Mgmt) : (s.withMgmt x).clock = s.clock := rfl
@[simp] theorem State.withMgmt_ident (s : State) (x : Mgmt) : (s.withMgmt x).ident = s.ident := rfl
@[simp] theorem State.withMgmt_link (s : State) (x : Mgmt) : (s.withMgmt x).link = s.link := rfl
@[simp] theorem State.withMgmt_cls (s : State) (x : Mgmt) : (s.withMgmt x).cls = s.cls := rfl
@[simp] theorem State.withMgmt_demand (s : State) (x : Mgmt) : (s.withMgmt x).demand = s.demand := rfl
@[simp] theorem State.withMgmt_slide (s : State) (x : Mgmt) : (s.withMgmt x).slide = s.slide := rfl
@[simp] theorem State.withMgmt_air (s : State) (x : Mgmt) : (s.withMgmt x).air = s.air := rfl
@[simp] theorem State.withMgmt_blend (s : State) (x : Mgmt) : (s.withMgmt x).blend = s.blend := rfl
@[simp] theorem State.withMgmt_restrict (s : State) (x : Mgmt) : (s.withMgmt x).restrict = s.restrict := rfl
@[simp] theorem State.withMgmt_banks (s : State) (x : Mgmt) : (s.withMgmt x).banks = s.banks := rfl
@[simp] theorem State.withMgmt_hist (s : State) (x : Mgmt) : (s.withMgmt x).hist = s.hist := rfl
@[simp] theorem State.withMgmt_store (s : State) (x : Mgmt) : (s.withMgmt x).store = s.store := rfl
@[simp] theorem State.withMgmt_mgmt (s : State) (x : Mgmt) : (s.withMgmt x).mgmt = x := rfl
@[simp] theorem State.withMgmt_work (s : State) (x : Mgmt) : (s.withMgmt x).work = s.work := rfl

@[simp] theorem State.withWork_pending (s : State) (x : Work) : (s.withWork x).pending = s.pending := rfl
@[simp] theorem State.withWork_clock (s : State) (x : Work) : (s.withWork x).clock = s.clock := rfl
@[simp] theorem State.withWork_ident (s : State) (x : Work) : (s.withWork x).ident = s.ident := rfl
@[simp] theorem State.withWork_link (s : State) (x : Work) : (s.withWork x).link = s.link := rfl
@[simp] theorem State.withWork_cls (s : State) (x : Work) : (s.withWork x).cls = s.cls := rfl
@[simp] theorem State.withWork_demand (s : State) (x : Work) : (s.withWork x).demand = s.demand := rfl
@[simp] theorem State.withWork_slide (s : State) (x : Work) : (s.withWork x).slide = s.slide := rfl
@[simp] theorem State.withWork_air (s : State) (x : Work) : (s.withWork x).air = s.air := rfl
@[simp] theorem State.withWork_blend (s : State) (x : Work) : (s.withWork x).blend = s.blend := rfl
@[simp] theorem State.withWork_restrict (s : State) (x : Work) : (s.withWork x).restrict = s.restrict := rfl
@[simp] theorem State.withWork_banks (s : State) (x : Work) : (s.withWork x).banks = s.banks := rfl
@[simp] theorem State.withWork_hist (s : State) (x : Work) : (s.withWork x).hist = s.hist := rfl
@[simp] theorem State.withWork_store (s : State) (x : Work) : (s.withWork x).store = s.store := rfl
@[simp] theorem State.withWork_mgmt (s : State) (x : Work) : (s.withWork x).mgmt = s.mgmt := rfl
@[simp] theorem State.withWork_work (s : State) (x : Work) : (s.withWork x).work = x := rfl

end Sys2Proof.Machine
end

