-- ==== Sys2Proof/Laws/Vec.lean ====
section
/-!
SUPPORT. The vectors of fixed length: reading after writing, and mapping.
-/

namespace Sys2Proof

theorem Vec.ext_toList {α : Type} {n : Nat} {v w : Vec α n} (h : v.toList = w.toList) : v = w := by
  cases v; cases w; cases h; rfl

theorem Vec.get_eq {α : Type} {n : Nat} (v : Vec α n) (i : Fin n) :
    v.get i = v.toList[i.val]'(by rw [v.len]; exact i.isLt) := rfl

@[simp] theorem Vec.get_set_same {α : Type} {n : Nat} (v : Vec α n) (i : Fin n) (x : α) :
    (v.set i x).get i = x := by
  simp [Vec.get_eq, Vec.set]

theorem Vec.get_set_other {α : Type} {n : Nat} (v : Vec α n) {i j : Fin n} (x : α) (h : i ≠ j) :
    (v.set i x).get j = v.get j := by
  have h' : i.val ≠ j.val := fun e => h (Fin.ext e)
  simp [Vec.get_eq, Vec.set, h']

theorem Vec.get_set {α : Type} {n : Nat} (v : Vec α n) (i j : Fin n) (x : α) :
    (v.set i x).get j = if i = j then x else v.get j := by
  split
  · next h => subst h; simp
  · next h => exact Vec.get_set_other v x h

@[simp] theorem Vec.get_map {α β : Type} {n : Nat} (v : Vec α n) (f : α → β) (i : Fin n) :
    (v.map f).get i = f (v.get i) := by
  simp [Vec.get_eq, Vec.map]

@[simp] theorem Vec.get_fill {α : Type} (n : Nat) (x : α) (i : Fin n) : (Vec.fill n x).get i = x := by
  simp [Vec.get_eq, Vec.fill]

/-- Two vectors with the same elements are the same. -/
theorem Vec.ext_get {α : Type} {n : Nat} {v w : Vec α n} (h : ∀ i, v.get i = w.get i) : v = w := by
  apply Vec.ext_toList
  apply List.ext_getElem
  · rw [v.len, w.len]
  · intro i h1 _
    have := h ⟨i, by rw [v.len] at h1; exact h1⟩
    simpa [Vec.get_eq] using this

/-- A set that does not change what a function reads leaves the map. -/
theorem Vec.map_set_same {α β : Type} {n : Nat} (v : Vec α n) (i : Fin n) (x : α) (f : α → β)
    (h : f x = f (v.get i)) : (v.set i x).map f = v.map f := by
  apply Vec.ext_get
  intro j
  rw [Vec.get_map, Vec.get_map, Vec.get_set]
  split
  · next e => subst e; exact h
  · rfl

end Sys2Proof
end

