-- ==== Sys2Proof/Laws/Base.lean ====
section
/-!
SUPPORT. What handing on leaves alone. The base of a state is what no hand-over, record, trigger, notice or
selection of a frame ever writes; each shared operation of that kind keeps it, and keeps the four blocks that
hold the device's working values.
-/

namespace Sys2Proof.Machine

/-! ### The base -/

/-- What handing on keeps of a port. -/
structure PortBase where
  threshold : Nat
  crcRejects : Nat
  lengthRejects : Nat
  framesSent : Nat
  unknownSources : Nat
  lastArrival : Time
  silenceTimer : Option Timer
  silent : Bool

@[reducible] def Port.base (p : Port) : PortBase :=
  ⟨p.threshold, p.crcRejects, p.lengthRejects, p.framesSent, p.unknownSources, p.lastArrival, p.silenceTimer,
    p.silent⟩

/-- What handing on keeps of a restriction entry: its settings. -/
structure EntryBase where
  enable : Bool
  invert : Bool
  priority : Nat
  path : Path
  action : Nat
  trigger : Bool
  edge : NoticeEdge
  force : Bool

@[reducible] def Entry.base (e : Entry) : EntryBase :=
  ⟨e.enable, e.invert, e.priority, e.path, e.action, e.trigger, e.edge, e.force⟩

/-- What handing on keeps of the recorder: its configuration and the scan. -/
structure RecorderBase where
  pre : Nat
  post : Nat
  policy : Policy
  slidingTrigger : Bool
  scan : Option Scan

@[reducible] def Recorder.base (h : Recorder) : RecorderBase := ⟨h.pre, h.post, h.policy, h.slidingTrigger, h.scan⟩

/-- What handing on keeps of a slot: its NV header, its cells, its erase. -/
structure SlotBase where
  nv : Header
  cells : Vec (Option NvCell) 384
  erase : Option Nat

@[reducible] def Slot.base (x : Slot) : SlotBase := ⟨x.nv, x.cells, x.erase⟩

/-- What handing on keeps of the responder. -/
structure MgmtBase where
  malformed : Nat
  noticeAddress : Byte
  noticeSide : PortId
  enables : NoticeEnables

@[reducible] def Mgmt.base (m : Mgmt) : MgmtBase := ⟨m.malformed, m.noticeAddress, m.noticeSide, m.enables⟩

/-- What handing on keeps of the link. -/
structure LinkBase where
  a : PortBase
  b : PortBase

@[reducible] def Link.base (l : Link) : LinkBase := ⟨l.a.base, l.b.base⟩

/-- What handing on keeps of the restriction table. -/
structure RestrictBase where
  entries : Vec EntryBase 20
  limElectric : Nat
  limAir : Nat

@[reducible] def Restrict.base (r : Restrict) : RestrictBase := ⟨r.entries.map Entry.base, r.limElectric, r.limAir⟩

/-- What handing on keeps of the store. -/
structure StoreBase where
  slots : Vec SlotBase 16
  nvNext : BitVec 32

@[reducible] def Store.base (x : Store) : StoreBase := ⟨x.slots.map Slot.base, x.nvNext⟩

/-- What handing on keeps of a state, the slide, air and blend blocks apart. -/
structure Base where
  pending : List Instr
  clock : Clock
  ident : Ident
  link : LinkBase
  cls : Classifier
  demand : Demand
  restrict : RestrictBase
  banks : Banks
  hist : RecorderBase
  store : StoreBase
  mgmt : MgmtBase

def State.base (s : State) : Base :=
  ⟨s.pending, s.clock, s.ident, s.link.base, s.cls, s.demand, s.restrict.base, s.banks, s.hist.base, s.store.base,
    s.mgmt.base⟩

/-! ### Replacing a block -/

@[simp] theorem withLink_base (s : State) (x : Link) (h : x.base = s.link.base) : (s.withLink x).base = s.base := by
  simp [State.base, h]
@[simp] theorem withRestrict_base (s : State) (x : Restrict) (h : x.base = s.restrict.base) :
    (s.withRestrict x).base = s.base := by simp [State.base, h]
@[simp] theorem withHist_base (s : State) (x : Recorder) (h : x.base = s.hist.base) :
    (s.withHist x).base = s.base := by simp [State.base, h]
@[simp] theorem withStore_base (s : State) (x : Store) (h : x.base = s.store.base) :
    (s.withStore x).base = s.base := by simp [State.base, h]
@[simp] theorem withMgmt_base (s : State) (x : Mgmt) (h : x.base = s.mgmt.base) : (s.withMgmt x).base = s.base := by
  simp [State.base, h]
@[simp] theorem withWork_base (s : State) (x : Work) : (s.withWork x).base = s.base := rfl
@[simp] theorem withSlide_base (s : State) (x : Slide) : (s.withSlide x).base = s.base := rfl
@[simp] theorem withAir_base (s : State) (x : Air) : (s.withAir x).base = s.base := rfl
@[simp] theorem withBlend_base (s : State) (x : Blend) : (s.withBlend x).base = s.base := rfl

/-! ### The base with the three working blocks -/

/-- What handing on keeps: the base, and the slide, air and blend blocks. -/
structure Held where
  base : Base
  slide : Slide
  air : Air
  blend : Blend

def State.held (s : State) : Held := ⟨s.base, s.slide, s.air, s.blend⟩

theorem held_base {s t : State} (h : t.held = s.held) : t.base = s.base := congrArg Held.base h
theorem held_slide {s t : State} (h : t.held = s.held) : t.slide = s.slide := congrArg Held.slide h
theorem held_air {s t : State} (h : t.held = s.held) : t.air = s.air := congrArg Held.air h
theorem held_blend {s t : State} (h : t.held = s.held) : t.blend = s.blend := congrArg Held.blend h

@[simp] theorem withLink_held (s : State) (x : Link) (h : x.base = s.link.base) : (s.withLink x).held = s.held := by
  simp [State.held, h]
@[simp] theorem withRestrict_held (s : State) (x : Restrict) (h : x.base = s.restrict.base) :
    (s.withRestrict x).held = s.held := by simp [State.held, h]
@[simp] theorem withHist_held (s : State) (x : Recorder) (h : x.base = s.hist.base) :
    (s.withHist x).held = s.held := by simp [State.held, h]
@[simp] theorem withStore_held (s : State) (x : Store) (h : x.base = s.store.base) :
    (s.withStore x).held = s.held := by simp [State.held, h]
@[simp] theorem withMgmt_held (s : State) (x : Mgmt) (h : x.base = s.mgmt.base) : (s.withMgmt x).held = s.held := by
  simp [State.held, h]
@[simp] theorem withWork_held (s : State) (x : Work) : (s.withWork x).held = s.held := rfl

/-! ### Reading the base -/

section
variable {s t : State}
theorem base_pending (h : t.base = s.base) : t.pending = s.pending := congrArg Base.pending h
theorem base_clock (h : t.base = s.base) : t.clock = s.clock := congrArg Base.clock h
theorem base_ident (h : t.base = s.base) : t.ident = s.ident := congrArg Base.ident h
theorem base_cls (h : t.base = s.base) : t.cls = s.cls := congrArg Base.cls h
theorem base_demand (h : t.base = s.base) : t.demand = s.demand := congrArg Base.demand h
theorem base_banks (h : t.base = s.base) : t.banks = s.banks := congrArg Base.banks h
theorem base_hist (h : t.base = s.base) : t.hist.base = s.hist.base := congrArg Base.hist h
theorem base_mgmt (h : t.base = s.base) : t.mgmt.base = s.mgmt.base := congrArg Base.mgmt h
theorem base_nvNext (h : t.base = s.base) : t.store.nvNext = s.store.nvNext :=
  congrArg (fun x : Base => x.store.nvNext) h

theorem base_port (h : t.base = s.base) (p : PortId) : (t.port p).base = (s.port p).base := by
  cases p
  · exact congrArg (fun x : Base => x.link.a) h
  · exact congrArg (fun x : Base => x.link.b) h

theorem base_slot (h : t.base = s.base) (k : Fin 16) : (t.slot k).base = (s.slot k).base := by
  have := congrArg (fun x : Base => x.store.slots.get k) h
  simpa [State.base, Store.base, State.slot] using this

theorem base_entry (h : t.base = s.base) (i : Fin 20) : (t.entry i).base = (s.entry i).base := by
  have := congrArg (fun x : Base => x.restrict.entries.get i) h
  simpa [State.base, Restrict.base, State.entry] using this
end

/-! ### Ports -/

@[simp] theorem putPort_base (s : State) (p : PortId) (x : Port) (h : x.base = (s.port p).base) :
    (s.putPort p x).base = s.base := by
  cases p
  · exact withLink_base s _ (congrArg (fun y => (⟨y, s.link.b.base⟩ : LinkBase)) h)
  · exact withLink_base s _ (congrArg (fun y => (⟨s.link.a.base, y⟩ : LinkBase)) h)

@[simp] theorem putPort_held (s : State) (p : PortId) (x : Port) (h : x.base = (s.port p).base) :
    (s.putPort p x).held = s.held := by
  simp only [State.held, putPort_base s p x h]; rfl

@[simp] theorem putPort_port (s : State) (p : PortId) (x : Port) : (s.putPort p x).port p = x := by
  cases p <;> rfl

theorem putPort_other (s : State) {p q : PortId} (x : Port) (h : q ≠ p) : (s.putPort p x).port q = s.port q := by
  cases p <;> cases q <;> first | rfl | exact absurd rfl h

section
variable (s : State) (p : PortId) (x : Port)
@[simp] theorem putPort_slide : (s.putPort p x).slide = s.slide := rfl
@[simp] theorem putPort_air : (s.putPort p x).air = s.air := rfl
@[simp] theorem putPort_blend : (s.putPort p x).blend = s.blend := rfl
@[simp] theorem putPort_mgmt : (s.putPort p x).mgmt = s.mgmt := rfl
@[simp] theorem putPort_hist : (s.putPort p x).hist = s.hist := rfl
@[simp] theorem putPort_store : (s.putPort p x).store = s.store := rfl
@[simp] theorem putPort_restrict : (s.putPort p x).restrict = s.restrict := rfl
@[simp] theorem putPort_work : (s.putPort p x).work = s.work := rfl
@[simp] theorem putPort_cls : (s.putPort p x).cls = s.cls := rfl
@[simp] theorem putPort_demand : (s.putPort p x).demand = s.demand := rfl
@[simp] theorem putPort_banks : (s.putPort p x).banks = s.banks := rfl
@[simp] theorem putPort_ident : (s.putPort p x).ident = s.ident := rfl
@[simp] theorem putPort_clock : (s.putPort p x).clock = s.clock := rfl
@[simp] theorem putPort_pending : (s.putPort p x).pending = s.pending := rfl
end

end Sys2Proof.Machine
end

