-- ==== Sys2Proof/Laws/HandOn.lean ====
section
/-!
SUPPORT. Each operation of handing on keeps what is held (Laws/Base.lean): records, triggers, the opening and
committing of incidents, notices, selections, the edges and governing indices of the restriction table, and
settling, which is made of them.
-/

namespace Sys2Proof.Machine

/-! ### The store and the recorder -/

@[simp] theorem drawNv_held (s : State) : s.drawNv.held = s.held := by
  simp [State.drawNv]

@[simp] theorem putSlot_held (s : State) (k : Fin 16) (x : Slot) (h : x.base = (s.slot k).base) :
    (s.putSlot k x).held = s.held := by
  have : (s.store.slots.set k x).map Slot.base = s.store.slots.map Slot.base := Vec.map_set_same _ _ _ _ h
  simp [State.putSlot, this]

@[simp] theorem pushOp_held (s : State) (k : Fin 16) (kind : HeaderOpKind) (c : Header) :
    (s.pushOp k kind c).held = s.held := by
  simp [State.pushOp]

@[simp] theorem putHeader_held (s : State) (k : Fin 16) (h : Header) : (s.putHeader k h).held = s.held := by
  simp [State.putHeader]

/-- The end of a header write, with the erase it may start, writes the store alone. -/
theorem popOp_store (s : State) (k : Fin 16) (op : HeaderOp) : ∃ x, s.popOp k op = s.withStore x := by
  unfold State.popOp; dsimp only; split
  · exact ⟨_, rfl⟩
  · exact ⟨_, rfl⟩

@[simp] theorem putIncident_held (s : State) (i : Incident) : (s.putIncident i).held = s.held := by
  simp [State.putIncident]

@[simp] theorem commitFrom_held (s : State) (i : Incident) (k : Nat) : (s.commitFrom i k).held = s.held := by
  unfold State.commitFrom; split <;> simp

@[simp] theorem startCommit_held (s : State) (i : Incident) : (s.startCommit i).held = s.held := by
  unfold State.startCommit; split <;> simp

@[simp] theorem beginCommit_held (s : State) (i : Incident) : (s.beginCommit i).held = s.held := by
  unfold State.beginCommit; dsimp only; split <;> simp

@[simp] theorem appendPost_held (s : State) (r : Record) : (s.appendPost r).held = s.held := by
  unfold State.appendPost
  split
  · split
    · dsimp only; split <;> simp
    · rfl
  · rfl

@[simp] theorem writeRecord_held (s : State) (k : RecordKind) (b : Byte) (d : List Byte) :
    (s.writeRecord k b d).held = s.held := by
  simp [State.writeRecord]

@[simp] theorem leaveSlot_held (s : State) (k : Fin 16) : (s.leaveSlot k).held = s.held := by
  unfold State.leaveSlot; split
  · split <;> simp
  · rfl

@[simp] theorem note_held (s : State) (o : TriggerOutcome) : (s.note o).held = s.held := rfl

@[simp] theorem openOn_held (s : State) (g : Trigger) (k : Fin 16) : (s.openOn g k).held = s.held := by
  unfold State.openOn; dsimp only; split <;> simp

@[simp] theorem openIncident_held (s : State) (g : Trigger) : (s.openIncident g).held = s.held := by
  unfold State.openIncident; split <;> simp

@[simp] theorem joinTrigger_held (s : State) (g : Trigger) : (s.joinTrigger g).held = s.held := by
  unfold State.joinTrigger; split <;> simp

@[simp] theorem dropTrigger_held (s : State) : s.dropTrigger.held = s.held := by
  unfold State.dropTrigger; dsimp only; split <;> simp

@[simp] theorem queueTrigger_held (s : State) (g : Trigger) : (s.queueTrigger g).held = s.held := by
  unfold State.queueTrigger; split <;> simp

@[simp] theorem takeTrigger_held (s : State) (g : Trigger) : (s.takeTrigger g).held = s.held := by
  unfold State.takeTrigger; split <;> simp

@[simp] theorem sendTrigger_held (s : State) (x : TriggerSource) (b : Byte) : (s.sendTrigger x b).held = s.held := by
  simp [State.sendTrigger]

theorem foldl_held {α : Type} (f : State → α → State) (h : ∀ s a, (f s a).held = s.held) (l : List α) (s : State) :
    (l.foldl f s).held = s.held := by
  induction l generalizing s with
  | nil => rfl
  | cons a l ih => rw [List.foldl_cons, ih, h]

@[simp] theorem serveFrom_held (s : State) (l : List Trigger) : (s.serveFrom l).held = s.held := by
  induction l generalizing s with
  | nil => simp [State.serveFrom]
  | cons g gs ih =>
    unfold State.serveFrom; dsimp only
    split
    · rw [ih]; simp
    · rw [foldl_held _ joinTrigger_held]; simp
    · simp

@[simp] theorem serveQueue_held (s : State) : s.serveQueue.held = s.held := by
  unfold State.serveQueue; split
  · simp
  · rw [foldl_held _ joinTrigger_held]; simp
  · rfl

/-! ### Notices and the link -/

@[simp] theorem callOffer_held (s : State) : s.callOffer.held = s.held := rfl
@[simp] theorem callEval_held (s : State) : s.callEval.held = s.held := rfl
@[simp] theorem endOffer_held (s : State) : s.endOffer.held = s.held := rfl

@[simp] theorem callEvalIf_held (c : Bool) (s : State) : (s.callEvalIf c).held = s.held := by
  unfold State.callEvalIf; split <;> simp

@[simp] theorem putNotices_held (s : State) (l : List Notice) : (s.putNotices l).held = s.held := by
  simp [State.putNotices]

@[simp] theorem placeNotice_held (s : State) (k : NoticeKind) (b : Byte) (v : BitVec 32) :
    (s.placeNotice k b v).held = s.held := by
  unfold State.placeNotice; split <;> simp

@[simp] theorem joinForward_held (s : State) (p : PortId) (q : Queued) : (s.joinForward p q).held = s.held := by
  simp [State.joinForward]

theorem offerNotice_held {s t : State} (h : s.offerNotice = some t) : t.held = s.held := by
  unfold State.offerNotice at h
  split at h
  · cases h
  · split at h
    · cases h; simp
    · cases h

@[simp] theorem transmit_held (s : State) (p : PortId) (q : Queued) : (s.transmit p q).held = s.held := by
  unfold State.transmit
  split
  · simp
  · exact (withLink_held _ _ rfl).trans (by simp)

@[simp] theorem startCommand_held (s : State) (p : PortId) (c : Command) (cs : List Command) (k : Nat) :
    (s.startCommand p c cs k).held = s.held := by
  simp [State.startCommand]

@[simp] theorem startForward_held (s : State) (p : PortId) (q : Queued) (qs : List Queued) :
    (s.startForward p q qs).held = s.held := by
  unfold State.startForward; dsimp only; split <;> simp

theorem arbitrate_held {s t : State} {p : PortId} (h : s.arbitrate p = some t) : t.held = s.held := by
  unfold State.arbitrate at h
  split at h
  · cases h
  · cases h
  · cases h; simp
  · cases h; simp
  · split at h <;> cases h <;> simp

@[simp] theorem offerCommand_held (s : State) (p : PortId) (c : Command) : (s.offerCommand p c).held = s.held := by
  unfold State.offerCommand; dsimp only
  cases h : (s.putPort p { s.port p with command := placeCommand c (s.port p).command }).arbitrate p with
  | none => simp
  | some t => simp only [Option.getD_some]; rw [arbitrate_held h]; simp

/-! ### The restriction table -/

@[simp] theorem putEntry_held (s : State) (i : Fin 20) (e : Entry) (h : e.base = (s.entry i).base) :
    (s.putEntry i e).held = s.held := by
  have : (s.restrict.entries.set i e).map Entry.base = s.restrict.entries.map Entry.base :=
    Vec.map_set_same _ _ _ _ h
  simp [State.putEntry, this]

/-- An entry's settings are held. -/
theorem held_entry {s t : State} (h : t.held = s.held) (i : Fin 20) : (t.entry i).base = (s.entry i).base :=
  base_entry (held_base h) i

@[simp] theorem takeEdge_held (s : State) (i : Fin 20) (e : Entry) (h : e.base = (s.entry i).base) :
    (s.takeEdge i e).held = s.held := by
  unfold State.takeEdge; dsimp only
  have h1 : ∀ c : Bool, ∀ k b d, ((if c = true then s.sendTrigger .restriction (b8 (i.val + 1)) else s).writeRecord k b
      d).held = s.held := by intro c k b d; cases c <;> simp
  split
  · rw [placeNotice_held, putEntry_held _ _ _ (by rw [held_entry (h1 _ _ _ _)]; exact h), h1]
  · rw [putEntry_held _ _ _ (by rw [held_entry (h1 _ _ _ _)]; exact h), h1]

@[simp] theorem putEntry_entry (s : State) (i : Fin 20) (e : Entry) : (s.putEntry i e).entry i = e := by
  simp [State.putEntry, State.entry]

@[simp] theorem updateEntry_held (s : State) (i : Fin 20) (e : Entry) (h : e.base = (s.entry i).base) :
    (s.updateEntry i e).held = s.held := by
  have h' : ({ e with pending := e.computed } : Entry).base = (s.entry i).base := h
  unfold State.updateEntry; dsimp only
  split
  · rw [takeEdge_held _ _ _ (by rw [putEntry_entry]), putEntry_held _ _ _ h']
  · rw [putEntry_held _ _ _ h']

@[simp] theorem recomputePath_held (s : State) (path : Path) : (s.recomputePath path).held = s.held := by
  unfold State.recomputePath; dsimp only
  split
  · rfl
  · simp only [callEval_held, placeNotice_held, writeRecord_held]
    apply withRestrict_held
    cases path <;> rfl

@[simp] theorem recomputeGov_held (s : State) : s.recomputeGov.held = s.held := by simp [State.recomputeGov]

@[simp] theorem setCondition_held (s : State) (k : Nat) : (s.setCondition k).held = s.held := by
  unfold State.setCondition
  split
  · rfl
  · split
    · exact putEntry_held _ _ _ rfl
    · rfl

@[simp] theorem takeChange_held (s : State) (k : Nat) : (s.takeChange k).held = s.held := by
  unfold State.takeChange
  split
  · rfl
  · split
    · exact updateEntry_held _ _ _ rfl
    · rfl

@[simp] theorem handOver_held (s : State) (ks : List Nat) : (s.handOver ks).held = s.held := by
  simp [State.handOver, foldl_held _ takeChange_held, foldl_held _ setCondition_held]

/-! ### Settling -/

theorem settleOne_held {s t : State} (h : s.settleOne = some t) : t.held = s.held := by
  unfold State.settleOne at h
  split at h
  · cases h; simp
  · split at h
    · next e => cases h; exact arbitrate_held e
    · split at h
      · next e => cases h; exact arbitrate_held e
      · split at h
        · cases h
          cases e : s.offerNotice with
          | none => simp
          | some u => simpa using offerNotice_held e
        · split at h
          · cases h; simp
          · cases h

@[simp] theorem settleWithin_held (n : Nat) (s : State) : (State.settleWithin n s).held = s.held := by
  induction n generalizing s with
  | zero => rfl
  | succ n ih =>
    unfold State.settleWithin
    split
    · rfl
    · next e => rw [ih, settleOne_held e]

/-- Settling keeps all that is held. -/
@[simp] theorem settle_held (s : State) : s.settle.held = s.held := settleWithin_held _ _

/-- A hand-over with all it leaves to be handed on keeps all that is held. -/
@[simp] theorem handOn_held (s : State) (ks : List Nat) : (s.handOn ks).held = s.held := by simp [State.handOn]

end Sys2Proof.Machine
end

