-- ==== Sys2Proof/Laws/Event.lean ====
section
/-!
SUPPORT. What an evaluation, the end of an event, a slide change and a change of the demand unit leave alone.
`outer` is what an evaluation keeps; `far` is what an adoption, a change of mode and a change of application
keep as well.
-/

namespace Sys2Proof.Machine

/-! ### What an evaluation keeps -/

/-- What an evaluation keeps of the air block: what reports and timers set. -/
structure AirBase where
  measured : Nat
  status : ValveStatus
  mismatch : Bool

@[reducible] def Air.base (a : Air) : AirBase := ⟨a.measured, a.status, a.mismatch⟩

/-- What an evaluation keeps of an axle output: what reports set. -/
structure OutBase where
  achieved : Nat
  status : ConverterStatus

@[reducible] def AxleOut.base (o : AxleOut) : OutBase := ⟨o.achieved, o.status⟩

/-- What an evaluation keeps of the blend engine. -/
@[reducible] def Blend.base (x : Blend) : Vec OutBase 3 := x.axles.map AxleOut.base

/-- What an evaluation keeps of the state. -/
structure Outer where
  base : Base
  slide : Slide
  air : AirBase
  blend : Vec OutBase 3

def State.outer (s : State) : Outer := ⟨s.base, s.slide, s.air.base, s.blend.base⟩

theorem outer_of_held {s t : State} (h : t.held = s.held) : t.outer = s.outer := by
  simp [State.outer, held_base h, held_slide h, held_air h, held_blend h]

theorem outer_base {s t : State} (h : t.outer = s.outer) : t.base = s.base := congrArg Outer.base h
theorem outer_slide {s t : State} (h : t.outer = s.outer) : t.slide = s.slide := congrArg Outer.slide h
theorem outer_air {s t : State} (h : t.outer = s.outer) : t.air.base = s.air.base := congrArg Outer.air h
theorem outer_out {s t : State} (h : t.outer = s.outer) (i : Fin 3) : (t.out i).base = (s.out i).base := by
  have := congrArg (fun x : Outer => x.blend.get i) h
  simpa [State.outer, State.out] using this

@[simp] theorem withAir_outer (s : State) (x : Air) (h : x.base = s.air.base) : (s.withAir x).outer = s.outer := by
  simp [State.outer, h]
@[simp] theorem putAir_outer (s : State) (x : Air) (h : x.base = s.air.base) : (s.putAir x).outer = s.outer :=
  withAir_outer s x h
@[simp] theorem withBlend_outer (s : State) (x : Blend) (h : x.base = s.blend.base) :
    (s.withBlend x).outer = s.outer := by simp [State.outer, h]
@[simp] theorem withWork_outer (s : State) (x : Work) : (s.withWork x).outer = s.outer := rfl

@[simp] theorem putOut_outer (s : State) (i : Fin 3) (x : AxleOut) (h : x.base = (s.out i).base) :
    (s.putOut i x).outer = s.outer := by
  have : (s.blend.axles.set i x).map AxleOut.base = s.blend.axles.map AxleOut.base := Vec.map_set_same _ _ _ _ h
  exact withBlend_outer _ _ this

@[simp] theorem recordAir_held (s : State) (o : AirState) (a : Air) : (s.recordAir o a).held = s.held := by
  simp [State.recordAir]

@[simp] theorem takeSetpoint_base (a : Air) (now : Time) (budget p : Nat) :
    (a.takeSetpoint now budget p).base = a.base := by
  unfold Air.takeSetpoint; dsimp only; split
  · rfl
  · split <;> rfl

@[simp] theorem handStage8_outer (s : State) (o : AirState) : (s.handStage8 o).outer = s.outer := by
  unfold State.handStage8; split
  · rfl
  · exact outer_of_held (by simp)

@[simp] theorem handPOut_outer (s : State) (n : Nat) : (s.handPOut n).outer = s.outer := by
  unfold State.handPOut; split
  · rfl
  · exact putAir_outer _ _ rfl

@[simp] theorem offerCommand_outer (s : State) (p : PortId) (c : Command) : (s.offerCommand p c).outer = s.outer :=
  outer_of_held (by simp)

@[simp] theorem offerEffort_outer (s : State) (i : Fin 3) (e : Station) : (s.offerEffort i e).outer = s.outer := by
  unfold State.offerEffort; rw [offerCommand_outer]; exact putOut_outer _ _ _ rfl

@[simp] theorem offerPressure_outer (s : State) (e : Station) : (s.offerPressure e).outer = s.outer := by
  unfold State.offerPressure; rw [offerCommand_outer]; exact withBlend_outer _ _ rfl

@[simp] theorem sendEffort_outer (s : State) (i : Fin 3) : (s.sendEffort i).outer = s.outer := by
  unfold State.sendEffort; split
  · split <;> simp
  · rfl

@[simp] theorem sendPressure_outer (s : State) : s.sendPressure.outer = s.outer := by
  unfold State.sendPressure; split
  · split <;> simp
  · rfl

@[simp] theorem sendOutputs_outer (s : State) : s.sendOutputs.outer = s.outer := by simp [State.sendOutputs]

@[simp] theorem recordBlend_held (s : State) : s.recordBlend.held = s.held := by simp [State.recordBlend]

theorem newBlend_base (s : State) (b : Tables) (w : BlendWork) (a : Air) (c : Bool) :
    (s.newBlend b w a c).base = s.blend.base := by
  apply Vec.ext_get
  intro i
  show (Vec.map _ _).get i = (Vec.map _ _).get i
  rw [Vec.get_map, Vec.get_map]
  match i with
  | 0 => rfl
  | 1 => rfl
  | 2 => rfl

theorem evaluated_outer (s : State) (b : Tables) (w : BlendWork) (a : Air) (c : Bool) (h : a.base = s.air.base) :
    ((s.putAir a).withBlend (s.newBlend b w a c)).outer = s.outer :=
  (withBlend_outer (s.putAir a) _ (newBlend_base s b w a c)).trans (putAir_outer s a h)

@[simp] theorem evaluateOn_outer (s : State) (b : Tables) (c : Bool) : (s.evaluateOn b c).outer = s.outer := by
  have h := evaluated_outer s b (s.blendWork b) (s.air.takeSetpoint s.now s.dumpBudget (s.blendWork b).pSet) c
    (takeSetpoint_base _ _ _ _)
  unfold State.evaluateOn
  dsimp only
  split
  · rw [outer_of_held (recordBlend_held _)]; simp only [sendOutputs_outer, handPOut_outer, handStage8_outer]; exact h
  · simp only [sendOutputs_outer, handPOut_outer, handStage8_outer]; exact h

/-- An evaluation keeps all that is outer. -/
@[simp] theorem evaluate_outer (s : State) (c : Bool) : (s.evaluate c).outer = s.outer := by
  unfold State.evaluate; split
  · split <;> simp
  · rfl

@[simp] theorem evaluateIfDue_outer (s : State) : s.evaluateIfDue.outer = s.outer := by
  unfold State.evaluateIfDue; split <;> simp

/-- The end of an event keeps all that is outer. -/
@[simp] theorem finish_outer (s : State) : s.finish.outer = s.outer := by
  have h := fun t : State => outer_of_held (settle_held t)
  simp [State.finish, h]

/-! ### Slide changes keep the base -/

@[simp] theorem held_to_base {s t : State} (h : t.held = s.held) : t.base = s.base := held_base h

@[simp] theorem handOn_base (s : State) (ks : List Nat) : (s.handOn ks).base = s.base := held_base (handOn_held s ks)
@[simp] theorem settle_base (s : State) : s.settle.base = s.base := held_base (settle_held s)
@[simp] theorem finish_base (s : State) : s.finish.base = s.base := outer_base (finish_outer s)
@[simp] theorem writeRecord_base (s : State) (k : RecordKind) (b : Byte) (d : List Byte) :
    (s.writeRecord k b d).base = s.base := held_base (writeRecord_held s k b d)
@[simp] theorem sendTrigger_base (s : State) (x : TriggerSource) (b : Byte) : (s.sendTrigger x b).base = s.base :=
  held_base (sendTrigger_held s x b)
@[simp] theorem callEvalIf_base (c : Bool) (s : State) : (s.callEvalIf c).base = s.base :=
  held_base (callEvalIf_held c s)
@[simp] theorem callEval_base (s : State) : s.callEval.base = s.base := rfl
@[simp] theorem callOffer_base (s : State) : s.callOffer.base = s.base := rfl
@[simp] theorem placeNotice_base (s : State) (k : NoticeKind) (b : Byte) (v : BitVec 32) :
    (s.placeNotice k b v).base = s.base := held_base (placeNotice_held s k b v)
@[simp] theorem recordAir_base (s : State) (o : AirState) (a : Air) : (s.recordAir o a).base = s.base :=
  held_base (recordAir_held s o a)
@[simp] theorem putAir_base (s : State) (a : Air) : (s.putAir a).base = s.base := rfl
@[simp] theorem putAxle_base (s : State) (i : Fin 3) (r : SlideRecord) : (s.putAxle i r).base = s.base := rfl
@[simp] theorem putOut_base (s : State) (i : Fin 3) (x : AxleOut) : (s.putOut i x).base = s.base := rfl

@[simp] theorem moveAir_base (s : State) (a : Air) : (s.moveAir a).base = s.base := by
  unfold State.moveAir; dsimp only
  split <;> simp

@[simp] theorem handSlide_base (s : State) (c : Bool) : (s.handSlide c).base = s.base := by
  unfold State.handSlide; split <;> simp

@[simp] theorem recordAxle_base (s : State) (i : Fin 3) (o : SlideState) (r : SlideRecord) (v : Nat) :
    (s.recordAxle i o r v).base = s.base := by simp [State.recordAxle]

@[simp] theorem changeAxle_base (s : State) (i : Fin 3) (v : Nat) (r : SlideRecord) :
    (s.changeAxle i v r).base = s.base := by
  unfold State.changeAxle; dsimp only
  split
  · simp
  · split <;> simp

@[simp] theorem handAxles_base (s : State) (c d : Bool) : (s.handAxles c d).base = s.base := by
  simp [State.handAxles]

@[simp] theorem singleAxle_base (s : State) (i : Fin 3) (r : SlideRecord) : (s.singleAxle i r).base = s.base := by
  simp [State.singleAxle]

@[simp] theorem returnAxle_base (s : State) (i : Fin 3) : (s.returnAxle i).base = s.base := by
  unfold State.returnAxle; dsimp only; split <;> simp

@[simp] theorem recordSpeed_base (s : State) (c : Nat) (r : Bool) (n : Nat) : (s.recordSpeed c r n).base = s.base := by
  unfold State.recordSpeed; split
  · rfl
  · split <;> simp

@[simp] theorem updateReference_base (s : State) : s.updateReference.base = s.base := by
  unfold State.updateReference; split
  · rfl
  · simp

theorem foldl_base {α : Type} (f : State → α → State) (h : ∀ s a, (f s a).base = s.base) (l : List α) (s : State) :
    (l.foldl f s).base = s.base := by
  induction l generalizing s with
  | nil => rfl
  | cons a l ih => rw [List.foldl_cons, ih, h]

@[simp] theorem evaluateSample_base (x : State × Bool × Bool) (g : Fin 12) (v : Nat) :
    (State.evaluateSample x g v).1.base = x.1.base := by
  unfold State.evaluateSample; dsimp only
  split
  · split
    · exact foldl_base _ (fun s a => changeAxle_base s _ _ a) _ _
    · rfl
  · rfl

@[simp] theorem evaluateSamples_base (s : State) (l : List (Fin 12 × Nat)) : (s.evaluateSamples l).base = s.base := by
  have : ∀ (l : List (Fin 12 × Nat)) (x : State × Bool × Bool),
      (l.foldl (fun y p => State.evaluateSample y p.1 p.2) x).1.base = x.1.base := by
    intro l
    induction l with
    | nil => intro x; rfl
    | cons a l ih => intro x; rw [List.foldl_cons, ih, evaluateSample_base]
  unfold State.evaluateSamples; dsimp only
  rw [handAxles_base, this]

@[simp] theorem loseAxle_base (s : State) (g : Fin 12) : (s.loseAxle g).base = s.base := by
  unfold State.loseAxle; split
  · split <;> simp
  · rfl

/-! ### What a change of mode, an application's change and an adoption keep -/

/-- What these keep of a port. -/
structure PortFar where
  threshold : Nat
  crcRejects : Nat
  lengthRejects : Nat
  framesSent : Nat
  unknownSources : Nat
  lastArrival : Time

@[reducible] def Port.far (p : Port) : PortFar :=
  ⟨p.threshold, p.crcRejects, p.lengthRejects, p.framesSent, p.unknownSources, p.lastArrival⟩

structure LinkFar where
  a : PortFar
  b : PortFar

@[reducible] def Link.far (l : Link) : LinkFar := ⟨l.a.far, l.b.far⟩

/-- What these keep of the demand unit: what the cab sets. -/
structure DemandFar where
  lLast : Nat
  iLast : Nat
  hold : Hold
  emergency : Bool

@[reducible] def Demand.far (d : Demand) : DemandFar := ⟨d.lLast, d.iLast, d.hold, d.emergency⟩

/-- What a change of mode, an application's change and an adoption keep. -/
structure Far where
  pending : List Instr
  clock : Clock
  ident : Ident
  link : LinkFar
  cls : Classifier
  demand : DemandFar
  restrict : RestrictBase
  hist : RecorderBase
  store : StoreBase
  mgmt : MgmtBase

def State.far (s : State) : Far :=
  ⟨s.pending, s.clock, s.ident, s.link.far, s.cls, s.demand.far, s.restrict.base, s.hist.base, s.store.base, s.mgmt.base⟩

theorem far_of_base {s t : State} (h : t.base = s.base) : t.far = s.far := by
  have hl : t.link.base = s.link.base := congrArg Base.link h
  have hf : t.link.far = s.link.far :=
    congrArg (fun x : LinkBase => (⟨⟨x.a.threshold, x.a.crcRejects, x.a.lengthRejects, x.a.framesSent,
      x.a.unknownSources, x.a.lastArrival⟩, ⟨x.b.threshold, x.b.crcRejects, x.b.lengthRejects, x.b.framesSent,
      x.b.unknownSources, x.b.lastArrival⟩⟩ : LinkFar)) hl
  have hr : t.restrict.base = s.restrict.base := congrArg Base.restrict h
  have hs : t.store.base = s.store.base := congrArg Base.store h
  simp only [State.far, base_pending h, base_clock h, base_ident h, base_cls h, base_demand h, base_hist h,
    base_mgmt h, hf, hr, hs]

@[simp] theorem withLink_far (s : State) (x : Link) (h : x.far = s.link.far) : (s.withLink x).far = s.far := by
  simp [State.far, h]
@[simp] theorem withDemand_far (s : State) (x : Demand) (h : x.far = s.demand.far) : (s.withDemand x).far = s.far := by
  simp [State.far, h]
@[simp] theorem withBanks_far (s : State) (x : Banks) : (s.withBanks x).far = s.far := rfl
@[simp] theorem withSlide_far (s : State) (x : Slide) : (s.withSlide x).far = s.far := rfl
@[simp] theorem withBlend_far (s : State) (x : Blend) : (s.withBlend x).far = s.far := rfl
@[simp] theorem putAir_far (s : State) (a : Air) : (s.putAir a).far = s.far := rfl

@[simp] theorem handOn_far (s : State) (ks : List Nat) : (s.handOn ks).far = s.far := far_of_base (handOn_base s ks)
@[simp] theorem changeAxle_far (s : State) (i : Fin 3) (v : Nat) (r : SlideRecord) : (s.changeAxle i v r).far = s.far :=
  far_of_base (changeAxle_base s i v r)
@[simp] theorem putAxle_far (s : State) (i : Fin 3) (r : SlideRecord) : (s.putAxle i r).far = s.far := rfl
@[simp] theorem returnAxle_far (s : State) (i : Fin 3) : (s.returnAxle i).far = s.far :=
  far_of_base (returnAxle_base s i)
@[simp] theorem handAxles_far (s : State) (c d : Bool) : (s.handAxles c d).far = s.far :=
  far_of_base (handAxles_base s c d)
@[simp] theorem placeNotice_far (s : State) (k : NoticeKind) (b : Byte) (v : BitVec 32) :
    (s.placeNotice k b v).far = s.far := far_of_base (placeNotice_base s k b v)
@[simp] theorem callEval_far (s : State) : s.callEval.far = s.far := rfl
@[simp] theorem callEvalIf_far (c : Bool) (s : State) : (s.callEvalIf c).far = s.far := far_of_base (callEvalIf_base c s)
@[simp] theorem recordMode_far (s : State) (a b c d : Byte) : (s.recordMode a b c d).far = s.far :=
  far_of_base (writeRecord_base _ _ _ _)
@[simp] theorem finish_far (s : State) : s.finish.far = s.far := far_of_base (finish_base s)
@[simp] theorem settle_far (s : State) : s.settle.far = s.far := far_of_base (settle_base s)

theorem foldl_far {α : Type} (f : State → α → State) (h : ∀ s a, (f s a).far = s.far) (l : List α) (s : State) :
    (l.foldl f s).far = s.far := by
  induction l generalizing s with
  | nil => rfl
  | cons a l ih => rw [List.foldl_cons, ih, h]

@[simp] theorem unsenseAxle_far (s : State) (i : Fin 3) : (s.unsenseAxle i).far = s.far := by
  unfold State.unsenseAxle; split <;> simp

@[simp] theorem noticeMode_far (s : State) (m : Mode) : (s.noticeMode m).far = s.far := by simp [State.noticeMode]

@[simp] theorem enterActive_far (s : State) (m : Mode) : (s.enterActive m).far = s.far := by
  unfold State.enterActive; dsimp only
  split <;> simp [foldl_far _ unsenseAxle_far]

@[simp] theorem clearAxle_far (s : State) (i : Fin 3) : (s.clearAxle i).far = s.far := by simp [State.clearAxle]

theorem putMode_far (s : State) (a : Air) (m : Mode) :
    ((s.putAir a).withDemand { s.demand with mode := m }).far = s.far := withDemand_far (s.putAir a) _ rfl

theorem withdraw_far (s : State) :
    (s.withLink { s.link with a := s.link.a.withdrawn, b := s.link.b.withdrawn }).far = s.far := withLink_far s _ rfl

theorem rearm_far (s : State) (n m : Time) (k l : Nat) :
    (s.withLink { s.link with a := s.link.a.rearm n k, b := s.link.b.rearm m l }).far = s.far := withLink_far s _ rfl

@[simp] theorem leaveActive_far (s : State) : s.leaveActive.far = s.far := by
  unfold State.leaveActive
  dsimp only
  rw [noticeMode_far, recordMode_far, handOn_far]
  rw [putMode_far, foldl_far _ clearAxle_far, withBlend_far, withdraw_far]

@[simp] theorem adoptAxle_far (n : Nat) (s : State) (i : Fin 3) : (State.adoptAxle n s i).far = s.far := by
  unfold State.adoptAxle; split
  · simp
  · split
    · dsimp only; split <;> simp
    · rfl

@[simp] theorem adopt_far (s : State) : s.adopt.far = s.far := by
  unfold State.adopt
  dsimp only
  rw [callEval_far]
  split
  all_goals
    try rw [enterActive_far]
    rw [handOn_far, handAxles_far, foldl_far _ (adoptAxle_far _), handOn_far, withSlide_far, handOn_far, handOn_far, handOn_far]
    rw [rearm_far, handOn_far, withBanks_far]

@[simp] theorem releaseAxle_far (s : State) (i : Fin 3) : (s.releaseAxle i).far = s.far := by
  unfold State.releaseAxle; split <;> simp

@[simp] theorem enterReleased_far (s : State) (c : Byte) : (s.enterReleased c).far = s.far := by
  unfold State.enterReleased; dsimp only
  split <;> simp [foldl_far _ releaseAxle_far]

@[simp] theorem openApplication_far (s : State) : s.openApplication.far = s.far := by simp [State.openApplication]

@[simp] theorem beginRelease_far (s : State) : s.beginRelease.far = s.far := by
  unfold State.beginRelease; dsimp only; split <;> simp

@[simp] theorem resumeApplication_far (s : State) : s.resumeApplication.far = s.far := by
  simp [State.resumeApplication]

@[simp] theorem testApplication_far (s : State) : s.testApplication.far = s.far := by
  unfold State.testApplication; split <;> simp

/-- Items 3 to 5 of R43 keep what the cab set and everything outside the demand unit's reach. -/
@[simp] theorem handDemand_far (s : State) (c : Bool) : (s.handDemand c).far = s.far := by simp [State.handDemand]

@[simp] theorem confirmRelease_far (s : State) (v : Nat) : (s.confirmRelease v).far = s.far := by
  unfold State.confirmRelease; split
  · split <;> simp
  · rfl

end Sys2Proof.Machine
end

