-- ==== Sys2Proof/Laws/Ports.lean ====
section
/-!
SUPPORT. What the device's own operations do to the ports' queues. `Room` says that a FORWARD queue of at most
fifteen frames stays one, so that a reply still finds its place (R6). `Keeps` says that a frame the device has
placed on a port stays there, queued or on the wire. All that an event hands on gives both; the offering of a
reply gives `Keeps` alone.
-/

namespace Sys2Proof.Machine

/-! ### What the ports hold -/

/-- Each port's FORWARD queue of at most fifteen frames stays one. -/
def Room (s t : State) : Prop := ∀ p, (s.port p).forward.length ≤ 15 → (t.port p).forward.length ≤ 15

/-- What a port holds for the link it still holds, a transmission in progress goes on, and a full FORWARD queue behind
one stays as it is (R6). -/
structure PortKeeps (x y : Port) : Prop where
  carries : ∀ o, x.carries o → y.carries o
  passes : ∀ f, x.passes f → y.passes f
  busy : ∀ k, x.tx = some k → y.tx = some k ∧ y.fairness = x.fairness
  full : ∀ k, x.tx = some k → 16 ≤ x.forward.length → y.forward = x.forward

theorem PortKeeps.refl (x : Port) : PortKeeps x x :=
  ⟨fun _ h => h, fun _ h => h, fun _ h => ⟨h, rfl⟩, fun _ _ _ => rfl⟩

/-- What each port holds for the link it still holds. -/
def Keeps (s t : State) : Prop := ∀ p, PortKeeps (s.port p) (t.port p)

theorem Room.refl (s : State) : Room s s := fun _ h => h
theorem Room.trans {s t u : State} (h : Room s t) (k : Room t u) : Room s u := fun p x => k p (h p x)
theorem Keeps.refl (s : State) : Keeps s s := fun _ => PortKeeps.refl _
theorem Keeps.trans {s t u : State} (h : Keeps s t) (k : Keeps t u) : Keeps s u :=
  fun p => ⟨fun o x => (k p).1 o ((h p).1 o x), fun f x => (k p).2 f ((h p).2 f x),
    fun n x => ⟨((k p).3 n ((h p).3 n x).1).1, ((k p).3 n ((h p).3 n x).1).2.trans ((h p).3 n x).2⟩,
    fun n x l => ((k p).4 n ((h p).3 n x).1 (by rw [(h p).4 n x l]; exact l)).trans ((h p).4 n x l)⟩

/-- Both at once. -/
def Flows (s t : State) : Prop := Room s t ∧ Keeps s t

theorem Flows.refl (s : State) : Flows s s := ⟨Room.refl s, Keeps.refl s⟩
theorem Flows.trans {s t u : State} (h : Flows s t) (k : Flows t u) : Flows s u := ⟨h.1.trans k.1, h.2.trans k.2⟩

theorem port_of_link {s t : State} (h : t.link = s.link) (p : PortId) : t.port p = s.port p := by
  cases p <;> simp [State.port, h]

theorem flows_of_link {s t : State} (h : t.link = s.link) : Flows s t :=
  ⟨fun p x => by rw [port_of_link h p]; exact x,
   fun p => by rw [port_of_link h p]; exact PortKeeps.refl _⟩

theorem foldl_flows {α : Type} (f : State → α → State) (h : ∀ s a, Flows s (f s a)) (l : List α) (s : State) :
    Flows s (l.foldl f s) := by
  induction l generalizing s with
  | nil => exact Flows.refl s
  | cons a l ih => exact (h s a).trans (ih _)

theorem foldl_link {α : Type} (f : State → α → State) (h : ∀ s a, (f s a).link = s.link) (l : List α) (s : State) :
    (l.foldl f s).link = s.link := by
  induction l generalizing s with
  | nil => rfl
  | cons a l ih => rw [List.foldl_cons, ih, h]

/-! ### Operations that leave the link alone -/

@[simp] theorem drawNv_link (s : State) : s.drawNv.link = s.link := rfl
@[simp] theorem putSlot_link (s : State) (k : Fin 16) (x : Slot) : (s.putSlot k x).link = s.link := rfl
@[simp] theorem pushOp_link (s : State) (k : Fin 16) (a : HeaderOpKind) (c : Header) : (s.pushOp k a c).link = s.link := rfl
@[simp] theorem putHeader_link (s : State) (k : Fin 16) (h : Header) : (s.putHeader k h).link = s.link := rfl
@[simp] theorem popOp_link (s : State) (k : Fin 16) (op : HeaderOp) : (s.popOp k op).link = s.link := by
  obtain ⟨x, e⟩ := popOp_store s k op; rw [e]; rfl
@[simp] theorem putIncident_link (s : State) (i : Incident) : (s.putIncident i).link = s.link := rfl
@[simp] theorem commitFrom_link (s : State) (i : Incident) (k : Nat) : (s.commitFrom i k).link = s.link := by
  unfold State.commitFrom; split <;> simp
@[simp] theorem startCommit_link (s : State) (i : Incident) : (s.startCommit i).link = s.link := by
  unfold State.startCommit; split <;> simp
@[simp] theorem beginCommit_link (s : State) (i : Incident) : (s.beginCommit i).link = s.link := by
  unfold State.beginCommit; dsimp only; split <;> simp
@[simp] theorem appendPost_link (s : State) (r : Record) : (s.appendPost r).link = s.link := by
  unfold State.appendPost
  split
  · split
    · dsimp only; split <;> simp
    · rfl
  · rfl
@[simp] theorem writeRecord_link (s : State) (k : RecordKind) (b : Byte) (d : List Byte) :
    (s.writeRecord k b d).link = s.link := by simp [State.writeRecord]
@[simp] theorem leaveSlot_link (s : State) (k : Fin 16) : (s.leaveSlot k).link = s.link := by
  unfold State.leaveSlot; split
  · split <;> rfl
  · rfl
@[simp] theorem note_link (s : State) (o : TriggerOutcome) : (s.note o).link = s.link := rfl
@[simp] theorem openOn_link (s : State) (g : Trigger) (k : Fin 16) : (s.openOn g k).link = s.link := by
  unfold State.openOn; dsimp only; split <;> simp
@[simp] theorem openIncident_link (s : State) (g : Trigger) : (s.openIncident g).link = s.link := by
  unfold State.openIncident; split <;> simp
@[simp] theorem joinTrigger_link (s : State) (g : Trigger) : (s.joinTrigger g).link = s.link := by
  unfold State.joinTrigger; split <;> simp
@[simp] theorem dropTrigger_link (s : State) : s.dropTrigger.link = s.link := by
  unfold State.dropTrigger; dsimp only; split <;> simp
@[simp] theorem queueTrigger_link (s : State) (g : Trigger) : (s.queueTrigger g).link = s.link := by
  unfold State.queueTrigger; split <;> simp
@[simp] theorem takeTrigger_link (s : State) (g : Trigger) : (s.takeTrigger g).link = s.link := by
  unfold State.takeTrigger; split <;> simp
@[simp] theorem sendTrigger_link (s : State) (x : TriggerSource) (b : Byte) : (s.sendTrigger x b).link = s.link := by
  simp [State.sendTrigger]
@[simp] theorem serveFrom_link (s : State) (l : List Trigger) : (s.serveFrom l).link = s.link := by
  induction l generalizing s with
  | nil => rfl
  | cons g gs ih =>
    unfold State.serveFrom; dsimp only
    split
    · rw [ih]; simp
    · rw [foldl_link _ joinTrigger_link]; simp
    · simp
@[simp] theorem serveQueue_link (s : State) : s.serveQueue.link = s.link := by
  unfold State.serveQueue; split
  · simp
  · rw [foldl_link _ joinTrigger_link]; simp
  · rfl
@[simp] theorem callOffer_link (s : State) : s.callOffer.link = s.link := rfl
@[simp] theorem callEval_link (s : State) : s.callEval.link = s.link := rfl
@[simp] theorem endOffer_link (s : State) : s.endOffer.link = s.link := rfl
@[simp] theorem callEvalIf_link (c : Bool) (s : State) : (s.callEvalIf c).link = s.link := by
  unfold State.callEvalIf; split <;> rfl
@[simp] theorem placeNotice_link (s : State) (k : NoticeKind) (b : Byte) (v : BitVec 32) :
    (s.placeNotice k b v).link = s.link := by unfold State.placeNotice; split <;> rfl
@[simp] theorem putEntry_link (s : State) (i : Fin 20) (e : Entry) : (s.putEntry i e).link = s.link := rfl
@[simp] theorem takeEdge_link (s : State) (i : Fin 20) (e : Entry) : (s.takeEdge i e).link = s.link := by
  unfold State.takeEdge; dsimp only
  split <;> split <;> simp
@[simp] theorem updateEntry_link (s : State) (i : Fin 20) (e : Entry) : (s.updateEntry i e).link = s.link := by
  unfold State.updateEntry; dsimp only; split <;> simp
@[simp] theorem recomputePath_link (s : State) (path : Path) : (s.recomputePath path).link = s.link := by
  unfold State.recomputePath; dsimp only; split <;> simp
@[simp] theorem recomputeGov_link (s : State) : s.recomputeGov.link = s.link := by simp [State.recomputeGov]
@[simp] theorem setCondition_link (s : State) (k : Nat) : (s.setCondition k).link = s.link := by
  unfold State.setCondition
  split
  · rfl
  · split <;> simp
@[simp] theorem takeChange_link (s : State) (k : Nat) : (s.takeChange k).link = s.link := by
  unfold State.takeChange
  split
  · rfl
  · split <;> simp
@[simp] theorem handOver_link (s : State) (ks : List Nat) : (s.handOver ks).link = s.link := by
  simp [State.handOver, foldl_link _ takeChange_link, foldl_link _ setCondition_link]

/-! ### Selecting and joining -/

theorem putPort_flows (s : State) (p : PortId) (x : Port)
    (h : (s.port p).forward.length ≤ 15 → x.forward.length ≤ 15) (k : PortKeeps (s.port p) x) :
    Flows s (s.putPort p x) := by
  refine ⟨fun q y => ?_, fun q => ?_⟩
  · by_cases e : q = p
    · subst e; rw [putPort_port]; exact h y
    · rw [putPort_other s x e]; exact y
  · by_cases e : q = p
    · subst e; rw [putPort_port]; exact k
    · rw [putPort_other s x e]; exact PortKeeps.refl _

/-- A change of a port that leaves its FORWARD queue and transmitter alone. -/
theorem putPort_flows_same (s : State) (p : PortId) (x : Port) (h : x.forward = (s.port p).forward)
    (k : x.tx = (s.port p).tx) (l : x.fairness = (s.port p).fairness) : Flows s (s.putPort p x) :=
  putPort_flows s p x (fun y => by rw [h]; exact y)
    ⟨fun o y => by unfold Port.carries at *; rw [h, k]; exact y,
     fun f y => by unfold Port.passes at *; rw [h, k]; exact y,
     fun n y => ⟨by rw [k]; exact y, l⟩, fun _ _ _ => h⟩

/-- A frame of the device's joining a queue of at most fourteen frames. -/
theorem joinForward_flows (s : State) (p : PortId) (q : Queued) (h : (s.port p).forward.length ≤ 14) :
    Flows s (s.joinForward p q) := by
  refine putPort_flows s p _ (fun _ => ?_)
    ⟨fun o y => ?_, fun f y => ?_, fun _ y => ⟨y, rfl⟩, fun _ _ l => absurd l (by omega)⟩
  · simp only [List.length_append, List.length_cons, List.length_nil]; omega
  · unfold Port.carries at *
    rcases y with y | y
    · exact Or.inl (List.mem_append_left _ y)
    · exact Or.inr y
  · unfold Port.passes at *
    rcases y with y | y
    · exact Or.inl (List.mem_append_left _ y)
    · exact Or.inr y

theorem joinForward_keeps (s : State) (p : PortId) (q : Queued) (h : (s.port p).forward.length ≤ 15) :
    Keeps s (s.joinForward p q) := by
  intro r
  by_cases e : r = p
  · subst e
    unfold State.joinForward
    rw [putPort_port]
    refine ⟨fun o y => ?_, fun f y => ?_, fun _ y => ⟨y, rfl⟩, fun _ _ l => absurd l (by omega)⟩
    · rcases y with y | y
      · exact Or.inl (List.mem_append_left _ y)
      · exact Or.inr y
    · rcases y with y | y
      · exact Or.inl (List.mem_append_left _ y)
      · exact Or.inr y
  · unfold State.joinForward
    rw [putPort_other s _ e]
    exact PortKeeps.refl _

/-- The port after a transmission starts. -/
theorem transmit_port (s : State) (p : PortId) (q : Queued) :
    ∃ t : Transmission, (s.transmit p q).port p = { s.port p with tx := some t } ∧
      (∀ o, q = .originated o → t.frame.kind = o.kind ∧ t.frame.dest = o.dest ∧ t.frame.payload = o.payload) ∧
      (∀ f, q = .forwarded f → t.frame = f) := by
  cases q with
  | forwarded f =>
    refine ⟨⟨f, f.ticks⟩, ?_, ?_, ?_⟩
    · cases p <;> rfl
    · intro o h; cases h
    · intro g h; cases h; rfl
  | originated o =>
    refine ⟨⟨s.stamp o, (s.stamp o).ticks⟩, ?_, ?_, ?_⟩
    · cases p <;> rfl
    · intro o' h; cases h; exact ⟨rfl, rfl, rfl⟩
    · intro g h; cases h

theorem transmit_other (s : State) {p r : PortId} (q : Queued) (h : r ≠ p) : (s.transmit p q).port r = s.port r := by
  cases q <;> cases p <;> cases r <;> first | rfl | exact absurd rfl h

/-- A port whose transmitter is idle starts a frame that has left a queue. -/
theorem started_flows (s : State) (p : PortId) (x : Port) (q : Queued) (idle : (s.port p).tx = none)
    (hl : x.forward.length ≤ (s.port p).forward.length)
    (hm : ∀ r, r ∈ (s.port p).forward → r = q ∨ r ∈ x.forward) :
    Flows s ((s.putPort p x).transmit p q) := by
  obtain ⟨t, ht, ho, hf⟩ := transmit_port (s.putPort p x) p q
  rw [putPort_port] at ht
  refine ⟨fun r y => ?_, fun r => ?_⟩
  · by_cases e : r = p
    · subst e; rw [ht]; exact Nat.le_trans hl y
    · rw [transmit_other _ _ e, putPort_other s x e]; exact y
  · by_cases e : r = p
    · subst e
      rw [ht]
      refine ⟨fun o y => ?_, fun f y => ?_, fun _ y => absurd y (by rw [idle]; nofun),
        fun _ y => absurd y (by rw [idle]; nofun)⟩
      · unfold Port.carries at y
        rw [idle] at y
        rcases y with y | ⟨_, z, _⟩
        · rcases hm _ y with z | z
          · exact Or.inr ⟨t, rfl, ho o z.symm⟩
          · exact Or.inl z
        · cases z
      · unfold Port.passes at y
        rw [idle] at y
        rcases y with y | ⟨_, z, _⟩
        · rcases hm _ y with z | z
          · exact Or.inr ⟨t, rfl, hf f z.symm⟩
          · exact Or.inl z
        · cases z
    · rw [transmit_other _ _ e, putPort_other s x e]; exact PortKeeps.refl _

theorem startCommand_flows (s : State) (p : PortId) (c : Command) (cs : List Command) (k : Nat)
    (idle : (s.port p).tx = none) : Flows s (s.startCommand p c cs k) :=
  started_flows s p { s.port p with command := cs, fairness := k } _ idle (Nat.le_refl _) (fun _ h => Or.inr h)

theorem startForward_flows (s : State) (p : PortId) (q : Queued) (qs : List Queued)
    (idle : (s.port p).tx = none) (h : (s.port p).forward = q :: qs) : Flows s (s.startForward p q qs) := by
  have f : Flows s ((s.putPort p { s.port p with forward := qs, fairness := 0 }).transmit p q) :=
    started_flows s p _ q idle (by rw [h]; simp) (by rw [h]; intro r hr; simpa using hr)
  unfold State.startForward; dsimp only
  split
  · exact f.trans (flows_of_link rfl)
  · exact f

theorem arbitrate_flows {s t : State} {p : PortId} (h : s.arbitrate p = some t) : Flows s t := by
  unfold State.arbitrate at h
  split at h
  · cases h
  · cases h
  · next e _ _ => cases h; exact startCommand_flows s p _ _ _ e
  · next e _ f => cases h; exact startForward_flows s p _ _ e f
  · next e _ f =>
    split at h
    · cases h; exact startCommand_flows s p _ _ _ e
    · cases h; exact startForward_flows s p _ _ e f

theorem offerCommand_flows (s : State) (p : PortId) (c : Command) : Flows s (s.offerCommand p c) := by
  have f : Flows s (s.putPort p { s.port p with command := placeCommand c (s.port p).command }) :=
    putPort_flows_same s p _ rfl rfl rfl
  unfold State.offerCommand; dsimp only
  cases h : (s.putPort p { s.port p with command := placeCommand c (s.port p).command }).arbitrate p with
  | none => exact f
  | some t => exact f.trans (arbitrate_flows h)

theorem offerNotice_flows {s t : State} (h : s.offerNotice = some t) : Flows s t := by
  unfold State.offerNotice at h
  split at h
  · cases h
  · next x xs _ =>
    split at h
    · next e =>
      cases h
      have l : ((s.putNotices xs).port s.mgmt.noticeSide).forward.length ≤ 14 := by
        have : (s.putNotices xs).port s.mgmt.noticeSide = s.port s.mgmt.noticeSide := port_of_link rfl _
        rw [this]
        have e2 := (Bool.and_eq_true _ _ ▸ e).2
        have e3 := of_decide_eq_true e2
        unfold Config.forwardPlaces at e3
        omega
      exact Flows.trans (flows_of_link rfl) (joinForward_flows _ _ _ l)
    · cases h

theorem settleOne_flows {s t : State} (h : s.settleOne = some t) : Flows s t := by
  unfold State.settleOne at h
  split at h
  · cases h; exact flows_of_link (handOver_link _ _)
  · split at h
    · next e => cases h; exact arbitrate_flows e
    · split at h
      · next e => cases h; exact arbitrate_flows e
      · split at h
        · cases h
          cases e : s.offerNotice with
          | none => exact flows_of_link rfl
          | some u => exact offerNotice_flows e
        · split at h
          · cases h; exact flows_of_link (handOver_link _ _)
          · cases h

theorem settleWithin_flows (n : Nat) (s : State) : Flows s (State.settleWithin n s) := by
  induction n generalizing s with
  | zero => exact Flows.refl s
  | succ n ih =>
    unfold State.settleWithin
    split
    · exact Flows.refl s
    · next e => exact (settleOne_flows e).trans (ih _)

/-- Settling keeps room for a reply, and what the ports hold. -/
theorem settle_flows (s : State) : Flows s s.settle := settleWithin_flows _ s

/-- So does a hand-over. -/
theorem handOn_flows (s : State) (ks : List Nat) : Flows s (s.handOn ks) :=
  (flows_of_link (handOver_link s ks)).trans (settle_flows _)

/-! ### The evaluation and the end of an event -/

theorem offerEffort_flows (s : State) (i : Fin 3) (e : Station) : Flows s (s.offerEffort i e) :=
  Flows.trans (flows_of_link rfl) (offerCommand_flows (s.putOut i { s.out i with
    lastSent := some (s.out i).content, refresh := s.refreshTimer }) _ _)

theorem offerPressure_flows (s : State) (e : Station) : Flows s (s.offerPressure e) :=
  Flows.trans (flows_of_link rfl) (offerCommand_flows (s.withBlend { s.blend with
    pressure := { s.blend.pressure with
      lastSent := some s.blend.pressure.content, refresh := s.refreshTimer } }) _ _)

theorem sendEffort_flows (s : State) (i : Fin 3) : Flows s (s.sendEffort i) := by
  unfold State.sendEffort; split
  · split
    · exact Flows.refl s
    · exact offerEffort_flows s i _
  · exact Flows.refl s

theorem sendPressure_flows (s : State) : Flows s s.sendPressure := by
  unfold State.sendPressure; split
  · split
    · exact Flows.refl s
    · exact offerPressure_flows s _
  · exact Flows.refl s

theorem sendOutputs_flows (s : State) : Flows s s.sendOutputs :=
  (((sendEffort_flows s 0).trans (sendEffort_flows _ 1)).trans (sendEffort_flows _ 2)).trans (sendPressure_flows _)

theorem handStage8_flows (s : State) (o : AirState) : Flows s (s.handStage8 o) := by
  unfold State.handStage8; split
  · exact Flows.refl s
  · exact Flows.trans (flows_of_link (by simp [State.recordAir])) (handOn_flows (s.recordAir o s.air) _)

theorem handPOut_flows (s : State) (n : Nat) : Flows s (s.handPOut n) := by
  unfold State.handPOut; split
  · exact Flows.refl s
  · exact flows_of_link rfl

theorem recordBlend_link (s : State) : s.recordBlend.link = s.link := by simp [State.recordBlend]

theorem evaluateOn_flows (s : State) (b : Tables) (c : Bool) : Flows s (s.evaluateOn b c) := by
  have h : ∀ a : Air, Flows s ((((((s.putAir a).withBlend (s.newBlend b (s.blendWork b) a c)).handStage8
      s.air.state).handPOut s.blend.pressure.content.pressure)).sendOutputs) := fun a =>
    ((Flows.trans (flows_of_link rfl) (handStage8_flows ((s.putAir a).withBlend (s.newBlend b (s.blendWork b) a c))
      _)).trans (handPOut_flows _ _)).trans (sendOutputs_flows _)
  unfold State.evaluateOn
  dsimp only
  split
  · exact (h _).trans (flows_of_link (recordBlend_link _))
  · exact h _

theorem evaluate_flows (s : State) (c : Bool) : Flows s (s.evaluate c) := by
  unfold State.evaluate; split
  · split
    · exact evaluateOn_flows s _ c
    · exact Flows.refl s
  · exact Flows.refl s

theorem evaluateIfDue_flows (s : State) : Flows s s.evaluateIfDue := by
  unfold State.evaluateIfDue; split
  · exact Flows.trans (flows_of_link rfl) (evaluate_flows (s.withWork { s.work with evalDue := false }) false)
  · exact Flows.refl s

/-- The end of an event keeps room for a reply, and what the ports hold. -/
theorem finish_flows (s : State) : Flows s s.finish :=
  ((settle_flows s).trans ((evaluateIfDue_flows _).trans (settle_flows _))).trans (flows_of_link rfl)

/-! ### The offering of a reply -/

theorem offerReply_keeps (s : State) (p : PortId) (o : Orig) : Keeps s (s.offerReply p o) := by
  unfold State.offerReply; split
  · next h => exact joinForward_keeps s p _ (by simp only [Config.forwardPlaces] at h; omega)
  · exact (putPort_flows_same s p { s.port p with forwardDrops := bump (s.port p).forwardDrops } rfl rfl rfl).2

/-- A reply offered to a queue of at most fifteen frames is placed (R6). -/
theorem offerReply_carries (s : State) (p : PortId) (o : Orig) (h : (s.port p).forward.length ≤ 15) :
    ((s.offerReply p o).port p).carries o := by
  unfold State.offerReply
  rw [if_pos (by simp only [Config.forwardPlaces]; omega)]
  unfold State.joinForward
  rw [putPort_port]
  exact Or.inl (List.mem_append_right _ (List.mem_singleton.mpr rfl))

/-- A reply offered to a full queue is counted as a FORWARD drop (R6). -/
theorem offerReply_drops (s : State) (p : PortId) (o : Orig) (h : 16 ≤ (s.port p).forward.length) :
    ((s.offerReply p o).port p).forwardDrops = min ((s.port p).forwardDrops + 1) 65535 := by
  unfold State.offerReply
  rw [if_neg (by simp only [Config.forwardPlaces]; omega)]
  unfold State.countDrop
  rw [putPort_port]
  rfl

/-! ### The FORWARD drops -/

/-- Nothing an event hands on is counted as a FORWARD drop (R6): the forwarding and the reply alone are. -/
def DropsKept (s t : State) : Prop := ∀ p, (t.port p).forwardDrops = (s.port p).forwardDrops

theorem DropsKept.refl (s : State) : DropsKept s s := fun _ => rfl
theorem DropsKept.trans {s t u : State} (h : DropsKept s t) (k : DropsKept t u) : DropsKept s u :=
  fun p => (k p).trans (h p)
theorem drops_of_link {s t : State} (h : t.link = s.link) : DropsKept s t := fun p => by rw [port_of_link h p]

theorem putPort_drops (s : State) (p : PortId) (x : Port) (h : x.forwardDrops = (s.port p).forwardDrops) :
    DropsKept s (s.putPort p x) := fun q => by
  by_cases e : q = p
  · subst e; rw [putPort_port, h]
  · rw [putPort_other s x e]

theorem started_drops (s : State) (p : PortId) (x : Port) (q : Queued)
    (h : x.forwardDrops = (s.port p).forwardDrops) : DropsKept s ((s.putPort p x).transmit p q) := fun r => by
  obtain ⟨t, ht, _, _⟩ := transmit_port (s.putPort p x) p q
  by_cases e : r = p
  · subst e; rw [ht, putPort_port]; exact h
  · rw [transmit_other _ _ e, putPort_other s x e]

theorem startForward_drops (s : State) (p : PortId) (q : Queued) (qs : List Queued) :
    DropsKept s (s.startForward p q qs) := by
  have f : DropsKept s ((s.putPort p { s.port p with forward := qs, fairness := 0 }).transmit p q) :=
    started_drops s p _ q rfl
  unfold State.startForward; dsimp only
  split
  · exact f.trans (drops_of_link rfl)
  · exact f

theorem arbitrate_drops {s t : State} {p : PortId} (h : s.arbitrate p = some t) : DropsKept s t := by
  have c : ∀ c cs k, DropsKept s (s.startCommand p c cs k) := fun c cs k =>
    started_drops s p { s.port p with command := cs, fairness := k } _ rfl
  unfold State.arbitrate at h
  split at h
  · cases h
  · cases h
  · cases h; exact c _ _ _
  · cases h; exact startForward_drops s p _ _
  · split at h
    · cases h; exact c _ _ _
    · cases h; exact startForward_drops s p _ _

theorem offerCommand_drops (s : State) (p : PortId) (c : Command) : DropsKept s (s.offerCommand p c) := by
  have f : DropsKept s (s.putPort p { s.port p with command := placeCommand c (s.port p).command }) :=
    putPort_drops s p _ rfl
  unfold State.offerCommand; dsimp only
  cases h : (s.putPort p { s.port p with command := placeCommand c (s.port p).command }).arbitrate p with
  | none => exact f
  | some t => exact f.trans (arbitrate_drops h)

theorem joinForward_drops (s : State) (p : PortId) (q : Queued) : DropsKept s (s.joinForward p q) :=
  putPort_drops s p _ rfl

theorem offerNotice_drops {s t : State} (h : s.offerNotice = some t) : DropsKept s t := by
  unfold State.offerNotice at h
  split at h
  · cases h
  · split at h
    · cases h; exact DropsKept.trans (drops_of_link rfl) (joinForward_drops _ _ _)
    · cases h

theorem settleOne_drops {s t : State} (h : s.settleOne = some t) : DropsKept s t := by
  unfold State.settleOne at h
  split at h
  · cases h; exact drops_of_link (handOver_link _ _)
  · split at h
    · next e => cases h; exact arbitrate_drops e
    · split at h
      · next e => cases h; exact arbitrate_drops e
      · split at h
        · cases h
          cases e : s.offerNotice with
          | none => exact drops_of_link rfl
          | some u => exact offerNotice_drops e
        · split at h
          · cases h; exact drops_of_link (handOver_link _ _)
          · cases h

theorem settle_drops (s : State) : DropsKept s s.settle := by
  have w : ∀ n (s : State), DropsKept s (State.settleWithin n s) := fun n => by
    induction n with
    | zero => exact DropsKept.refl
    | succ n ih =>
      intro s
      unfold State.settleWithin
      split
      · exact DropsKept.refl s
      · next e => exact (settleOne_drops e).trans (ih _)
  exact w _ s

theorem handOn_drops (s : State) (ks : List Nat) : DropsKept s (s.handOn ks) :=
  (drops_of_link (handOver_link s ks)).trans (settle_drops _)

theorem sendEffort_drops (s : State) (i : Fin 3) : DropsKept s (s.sendEffort i) := by
  unfold State.sendEffort; split
  · split
    · exact DropsKept.refl s
    · exact DropsKept.trans (drops_of_link rfl) (offerCommand_drops (s.putOut i { s.out i with
        lastSent := some (s.out i).content, refresh := s.refreshTimer }) _ _)
  · exact DropsKept.refl s

theorem sendPressure_drops (s : State) : DropsKept s s.sendPressure := by
  unfold State.sendPressure; split
  · split
    · exact DropsKept.refl s
    · exact DropsKept.trans (drops_of_link rfl) (offerCommand_drops (s.withBlend { s.blend with
        pressure := { s.blend.pressure with
          lastSent := some s.blend.pressure.content, refresh := s.refreshTimer } }) _ _)
  · exact DropsKept.refl s

theorem handStage8_drops (s : State) (o : AirState) : DropsKept s (s.handStage8 o) := by
  unfold State.handStage8; split
  · exact DropsKept.refl s
  · exact DropsKept.trans (drops_of_link (by simp [State.recordAir])) (handOn_drops (s.recordAir o s.air) _)

theorem handPOut_drops (s : State) (n : Nat) : DropsKept s (s.handPOut n) := by
  unfold State.handPOut; split
  · exact DropsKept.refl s
  · exact drops_of_link rfl

theorem evaluateOn_drops (s : State) (b : Tables) (c : Bool) : DropsKept s (s.evaluateOn b c) := by
  have h : ∀ a : Air, DropsKept s ((((((s.putAir a).withBlend (s.newBlend b (s.blendWork b) a c)).handStage8
      s.air.state).handPOut s.blend.pressure.content.pressure)).sendOutputs) := fun a =>
    ((DropsKept.trans (drops_of_link rfl) (handStage8_drops ((s.putAir a).withBlend
      (s.newBlend b (s.blendWork b) a c)) _)).trans (handPOut_drops _ _)).trans
      ((((sendEffort_drops _ 0).trans (sendEffort_drops _ 1)).trans (sendEffort_drops _ 2)).trans
        (sendPressure_drops _))
  unfold State.evaluateOn
  dsimp only
  split
  · exact (h _).trans (drops_of_link (recordBlend_link _))
  · exact h _

/-- An evaluation counts no FORWARD drop. -/
theorem evaluate_drops (s : State) (c : Bool) : DropsKept s (s.evaluate c) := by
  unfold State.evaluate; split
  · split
    · exact evaluateOn_drops s _ c
    · exact DropsKept.refl s
  · exact DropsKept.refl s

theorem evaluateIfDue_drops (s : State) : DropsKept s s.evaluateIfDue := by
  unfold State.evaluateIfDue; split
  · exact DropsKept.trans (drops_of_link rfl) (evaluate_drops (s.withWork { s.work with evalDue := false }) false)
  · exact DropsKept.refl s

/-- The end of an event counts no FORWARD drop. -/
theorem finish_drops (s : State) : DropsKept s s.finish :=
  ((settle_drops s).trans ((evaluateIfDue_drops _).trans (settle_drops _))).trans (drops_of_link rfl)

end Sys2Proof.Machine
end

