-- ==== Sys2Proof/Laws/Arrivals.lean ====
section
/-!
SUPPORT. What the arrival of a frame does before the classifier takes it, and what serving a request does around
its owner's taking: each said once, for the statements about commands.
-/

namespace Sys2Proof.Machine

/-! ### The arrival -/

/-- A passing arrival at its port before its hand-over (R13). -/
def State.heard (s : State) (p : PortId) : State :=
  s.putPort p { s.port p with silent := false, lastArrival := s.now, silenceTimer := s.silenceTimer }

theorem passArrival_eq (s : State) (p : PortId) : s.passArrival p = (s.heard p).handOn [silenceEntry p] := rfl

@[simp] theorem testMatch_held (f : Frame) (s : State) (k : Fin 4) : (State.testMatch f s k).held = s.held := by
  unfold State.testMatch; split <;> simp

@[simp] theorem testMatch_link (f : Frame) (s : State) (k : Fin 4) : (State.testMatch f s k).link = s.link := by
  unfold State.testMatch; split <;> simp

@[simp] theorem testMatches_held (s : State) (f : Frame) : (s.testMatches f).held = s.held := by
  simp [State.testMatches]

@[simp] theorem testMatches_link (s : State) (f : Frame) : (s.testMatches f).link = s.link := by
  simp [State.testMatches]

@[simp] theorem offerForwarded_held (s : State) (p : PortId) (f : Frame) : (s.offerForwarded p f).held = s.held := by
  unfold State.offerForwarded; split
  · simp
  · exact putPort_held _ _ _ rfl

@[simp] theorem forward_held (s : State) (p : PortId) (f : Frame) : (s.forward p f).held = s.held := by
  unfold State.forward; split <;> simp

theorem offerForwarded_flows (s : State) (p : PortId) (f : Frame) : Flows s (s.offerForwarded p f) := by
  unfold State.offerForwarded; split
  · next h => exact joinForward_flows s p _ (by unfold Config.forwardPlaces at h; omega)
  · exact putPort_flows_same s p _ rfl rfl rfl

theorem forward_flows (s : State) (p : PortId) (f : Frame) : Flows s (s.forward p f) := by
  unfold State.forward; split
  · exact Flows.refl s
  · exact offerForwarded_flows s _ f

/-- The arrival writes the port's arrival time and silence, and nothing else that is held. -/
theorem arrived_held (s : State) (p : PortId) (f : Frame) : (s.arrived p f).held = (s.heard p).held := by
  simp [State.arrived, passArrival_eq]

theorem heard_flows (s : State) (p : PortId) : Flows s (s.heard p) := putPort_flows_same s p _ rfl rfl rfl

/-- The arrival keeps room for a reply, and what the ports hold. -/
theorem arrived_flows (s : State) (p : PortId) (f : Frame) : Flows s (s.arrived p f) :=
  ((((heard_flows s p).trans (handOn_flows _ _)).trans ((flows_of_link (testMatches_link _ f)).trans
    (settle_flows _))).trans (forward_flows _ p f)).trans (settle_flows _)

theorem heard_port (s : State) (p : PortId) : (s.heard p).port p =
    { s.port p with silent := false, lastArrival := s.now, silenceTimer := s.silenceTimer } := putPort_port _ _ _

theorem heard_other (s : State) {p q : PortId} (h : q ≠ p) : (s.heard p).port q = s.port q := putPort_other _ _ h

/-- What the arrival leaves of the port it came on. -/
theorem arrived_port (s : State) (p : PortId) (f : Frame) : ((s.arrived p f).port p).base =
    { (s.port p).base with silent := false, lastArrival := s.now, silenceTimer := s.silenceTimer } := by
  rw [base_port (held_base (arrived_held s p f)) p, heard_port]

theorem arrived_other (s : State) {p q : PortId} (f : Frame) (h : q ≠ p) :
    ((s.arrived p f).port q).base = (s.port q).base := by
  rw [base_port (held_base (arrived_held s p f)) q, heard_other s h]

/-- Reading what the arrival leaves. -/
theorem arrived_reads (s : State) (p : PortId) (f : Frame) :
    let u := s.arrived p f
    u.pending = s.pending ∧ u.clock = s.clock ∧ u.ident = s.ident ∧ u.cls = s.cls ∧ u.demand = s.demand ∧
      u.banks = s.banks ∧ u.hist.base = s.hist.base ∧ u.store.base = s.store.base ∧ u.mgmt.base = s.mgmt.base ∧
      u.restrict.base = s.restrict.base ∧ u.slide = s.slide ∧ u.air = s.air ∧ u.blend = s.blend := by
  have h := arrived_held s p f
  have b := held_base h
  exact ⟨(base_pending b).trans rfl, (base_clock b).trans rfl, (base_ident b).trans rfl, (base_cls b).trans rfl,
    (base_demand b).trans rfl, (base_banks b).trans rfl, (base_hist b).trans rfl, (congrArg Base.store b).trans rfl,
    (base_mgmt b).trans rfl, (congrArg Base.restrict b).trans rfl, (held_slide h).trans rfl, (held_air h).trans rfl,
    (held_blend h).trans rfl⟩

/-! ### A request -/

/-- What the owner of a request finds. -/
theorem taking_link (s : State) (c : State → Bool) : (s.taking c).link = s.link := by
  unfold State.taking; split <;> rfl

theorem offerReply_base (s : State) (p : PortId) (o : Orig) : (s.offerReply p o).base = s.base := by
  unfold State.offerReply; split
  · exact held_base (joinForward_held s p _)
  · exact putPort_base s p _ rfl

theorem offerReply_outer (s : State) (p : PortId) (o : Orig) : (s.offerReply p o).outer = s.outer := by
  unfold State.offerReply; split
  · exact outer_of_held (joinForward_held s p _)
  · exact outer_of_held (putPort_held s p _ rfl)

theorem settle_outer (s : State) : s.settle.outer = s.outer := outer_of_held (settle_held s)

theorem callOffer_outer (s : State) : s.callOffer.outer = s.outer := rfl
theorem inRequest_outer (s : State) (b : Bool) : (s.inRequest b).outer = s.outer := rfl

/-- The reply and what follows keep everything that is outer of what the owner left. -/
theorem reply_outer (h : ReqHead) (code : Byte) (t : Taken) : (State.reply h code t).outer = t.1.outer := by
  unfold State.reply
  rw [settle_outer, offerReply_outer, settle_outer, evaluateIfDue_outer, settle_outer]

theorem serve_outer (s : State) (h : ReqHead) (code : Byte) (c : State → Bool) (take : State → Taken) :
    (s.serve h code c take).outer = ((s.taking c).takeWith h take).1.outer := by
  unfold State.serve
  rw [settle_outer, callOffer_outer, inRequest_outer, reply_outer]

/-- A reply finds its place where the owner left at most fifteen frames in the queue, and keeps it. -/
theorem serve_carries (s : State) (h : ReqHead) (code : Byte) (c : State → Bool) (take : State → Taken)
    (room : (((((s.taking c).takeWith h take).1).port h.port).forward.length ≤ 15)) :
    ((s.serve h code c take).port h.port).carries (replyFrame h code ((s.taking c).takeWith h take).2) := by
  have r := ((settle_flows ((s.taking c).takeWith h take).1).trans
    ((evaluateIfDue_flows _).trans (settle_flows _))).1 h.port room
  have k := offerReply_carries _ h.port (replyFrame h code ((s.taking c).takeWith h take).2) r
  have k2 := ((settle_flows _).2 h.port).1 _ k
  unfold State.serve State.reply
  refine ((settle_flows _).2 h.port).1 _ ?_
  have l : ∀ x : State, ((x.inRequest false).callOffer).port h.port = x.port h.port :=
    fun x => port_of_link (s := x) rfl _
  rw [l]
  exact k2

/-- A reply to a full queue behind a transmission is lost: the queue stays as the owner left it, and the loss is
counted (R6). -/
theorem serve_drops (s : State) (h : ReqHead) (code : Byte) (c : State → Bool) (take : State → Taken)
    (n : Transmission) (busy : (((s.taking c).takeWith h take).1.port h.port).tx = some n)
    (full : 16 ≤ (((s.taking c).takeWith h take).1.port h.port).forward.length) :
    ((s.serve h code c take).port h.port).forward = (((s.taking c).takeWith h take).1.port h.port).forward ∧
      ((s.serve h code c take).port h.port).forwardDrops =
        min ((((s.taking c).takeWith h take).1.port h.port).forwardDrops + 1) 65535 ∧
      ((s.serve h code c take).port h.port).tx = some n := by
  have q := ((settle_flows ((s.taking c).takeWith h take).1).trans
    ((evaluateIfDue_flows _).trans (settle_flows _))).2 h.port
  have d := ((settle_drops ((s.taking c).takeWith h take).1).trans
    ((evaluateIfDue_drops _).trans (settle_drops _))) h.port
  have l := q.full n busy full
  have k := offerReply_keeps (((s.taking c).takeWith h take).1.settle.evaluateIfDue.settle) h.port
    (replyFrame h code ((s.taking c).takeWith h take).2) h.port
  have e := offerReply_drops (((s.taking c).takeWith h take).1.settle.evaluateIfDue.settle) h.port
    (replyFrame h code ((s.taking c).takeWith h take).2) (by rw [l]; exact full)
  have fl := k.full n (q.busy n busy).1 (by rw [l]; exact full)
  have m := fun x : State => Flows.trans (settle_flows x)
    (Flows.trans (flows_of_link (t := (x.settle.inRequest false).callOffer) rfl) (settle_flows _))
  have md := fun x : State => DropsKept.trans (settle_drops x)
    (DropsKept.trans (drops_of_link (t := (x.settle.inRequest false).callOffer) rfl) (settle_drops _))
  unfold State.serve State.reply
  refine ⟨?_, ?_, ((m _).2 h.port).busy n (k.busy n (q.busy n busy).1).1 |>.1⟩
  · rw [((m _).2 h.port).full n (k.busy n (q.busy n busy).1).1 (by rw [fl, l]; exact full), fl, l]
  · rw [md _ h.port, e, d]

theorem served_dest {s : State} {h : ReqHead} (v : s.serves h = true) : h.dest = s.nodeByte ∨ h.dest = 127 := by
  simp only [State.serves, Bool.or_eq_true, Bool.and_eq_true, decide_eq_true_eq] at v
  rcases v with v | v
  · exact Or.inl v
  · exact Or.inr v.1

theorem nodeByte_of_ident {s t : State} (h : t.ident = s.ident) : t.nodeByte = s.nodeByte := by
  simp [State.nodeByte, State.node, h]

theorem serves_of_ident {s t : State} (h : t.ident = s.ident) (r : ReqHead) : t.serves r = s.serves r := by
  simp only [State.serves, State.scopeOwn, State.ownIndex, nodeByte_of_ident h, h]

theorem badSource_of_ident {s t : State} (h : t.ident = s.ident) (b : Byte) : t.badSource b = s.badSource b := by
  simp only [State.badSource, nodeByte_of_ident h]

theorem otherPort_ne (p : PortId) : p ≠ otherPort p := by cases p <;> decide

/-- The forwarding touches no FORWARD drop of the port the frame came on. -/
theorem forward_drops (s : State) (p : PortId) (f : Frame) :
    ((s.forward p f).port p).forwardDrops = (s.port p).forwardDrops := by
  unfold State.forward State.offerForwarded
  split
  · rfl
  · split
    · exact joinForward_drops s _ _ p
    · unfold State.countDrop; rw [putPort_other s _ (otherPort_ne p)]

/-- Nor does the arrival. -/
theorem arrived_drops (s : State) (p : PortId) (f : Frame) :
    ((s.arrived p f).port p).forwardDrops = (s.port p).forwardDrops := by
  unfold State.arrived
  rw [settle_drops _ p, forward_drops, settle_drops _ p, drops_of_link (testMatches_link (s.passArrival p) f) p,
    passArrival_eq, handOn_drops _ _ p]
  exact (congrArg Port.forwardDrops (heard_port s p)).trans rfl

/-- The event of a served request is its arrival, the serving and the end. -/
theorem request_eq (s : State) (h : ReqHead) (code : Byte) (ps : List Byte) (c : State → Bool) (take : State → Taken)
    (v : s.Served h) :
    s.request h code ps c take = ((s.arrived h.port (requestFrame h code ps)).serve h code c take).finish ∧
      ((s.arrived h.port (requestFrame h code ps)).taking c).takeWith h take = take (s.finds h code ps c) := by
  have i := (arrived_reads s h.port (requestFrame h code ps)).2.2.1
  refine ⟨?_, ?_⟩
  · unfold State.request State.arrive State.consumeRequest State.respond
    dsimp only
    rw [nodeByte_of_ident i, if_pos (served_dest v.serves), badSource_of_ident i, v.source, serves_of_ident i,
      v.serves]
    rfl
  · unfold State.takeWith; rw [v.scope]; rfl

/-- What an owner leaves of the port its request came on, where the reply finds no place. -/
structure LeavesPort (x y : Port) : Prop where
  forward : y.forward = x.forward
  tx : y.tx = x.tx
  drops : y.forwardDrops = x.forwardDrops

/-- A served request: what the owner left, and its answer, placed, or lost and counted (R6). -/
theorem request_served (s : State) (h : ReqHead) (code : Byte) (ps : List Byte) (c : State → Bool)
    (take : State → Taken) (v : s.Served h) (room : Room (s.finds h code ps c) (take (s.finds h code ps c)).1)
    (full : s.Full h → LeavesPort ((s.finds h code ps c).port h.port) ((take (s.finds h code ps c)).1.port h.port)) :
    (s.request h code ps c take).outer = (take (s.finds h code ps c)).1.outer ∧
      s.answers (s.request h code ps c take) h code (take (s.finds h code ps c)).2.status
        (take (s.finds h code ps c)).2.data := by
  obtain ⟨e, tk⟩ := request_eq s h code ps c take v
  have fp : (s.finds h code ps c).port h.port = (s.arrived h.port (requestFrame h code ps)).port h.port :=
    port_of_link (taking_link _ c) h.port
  have a := arrived_flows s h.port (requestFrame h code ps)
  rw [e]
  refine ⟨by rw [finish_outer, serve_outer, tk], fun r => ?_, fun ⟨r, b⟩ => ?_⟩
  · have r := a.1 h.port r
    rw [← fp] at r
    refine ((finish_flows _).2 h.port).1 _ ?_
    have := serve_carries (s.arrived h.port (requestFrame h code ps)) h code c take (by rw [tk]; exact room _ r)
    rw [tk] at this
    exact this
  · obtain ⟨n, hn⟩ := Option.ne_none_iff_exists'.mp b
    have k := full ⟨r, b⟩
    have af := (a.2 h.port).full n hn r
    have fwd := k.forward.trans ((congrArg Port.forward fp).trans af)
    have tx := k.tx.trans ((congrArg Port.tx fp).trans ((a.2 h.port).busy n hn).1)
    have dr := k.drops.trans ((congrArg Port.forwardDrops fp).trans (arrived_drops s h.port _))
    have w := serve_drops (s.arrived h.port (requestFrame h code ps)) h code c take n (by rw [tk]; exact tx)
      (by rw [tk, fwd]; exact r)
    rw [tk] at w
    refine ⟨?_, by rw [finish_drops _ h.port, w.2.1, dr]⟩
    rw [((finish_flows _).2 h.port).full n w.2.2 (by rw [w.1, fwd]; exact r), w.1, fwd]

end Sys2Proof.Machine
end

