-- ==== Sys2Proof/Laws/Conditions.lean ====
section
/-!
SUPPORT. The condition law in one line: every entry but 17 and 19 holds the source value of its owner, and the
supervision rests outside ACTIVE mode.
-/

namespace Sys2Proof.Machine

theorem live_iff (e : Station) : e.live = true ↔ ¬e.Lost := by
  cases h : e.state <;> simp [Station.live, Station.Lost, h]

theorem not_live_iff (e : Station) : e.live = false ↔ e.Lost := by
  cases h : e.state <;> simp [Station.live, Station.Lost, h]

theorem own_any (f : Fin 3 → Bool) : ownAxles.any f = true ↔ ∃ i, f i = true := by
  simp only [ownAxles, List.any_cons, List.any_nil, Bool.or_false, Bool.or_eq_true]
  exact ⟨fun h => by rcases h with h | h | h <;> exact ⟨_, h⟩,
    fun ⟨i, h⟩ => by fin_cases i <;> simp_all⟩

theorem axleIn_iff (s : State) (x : SlideState) :
    s.axleIn x = true ↔ s.demand.mode = .active ∧ ∃ i : Fin 3, i.val < s.n ∧ (s.axle i).state = x := by
  simp only [State.axleIn, State.isActive, State.anyAxle, Bool.and_eq_true, decide_eq_true_eq, own_any,
    State.configured]

theorem converterStale_iff (s : State) : s.converterStale = true ↔
    ∃ i : Fin 3, i.val < s.n ∧ ∀ e, s.converterOf i = some e → e.Lost := by
  simp only [State.converterStale, own_any, Bool.and_eq_true, State.configured, decide_eq_true_eq]
  refine exists_congr fun i => and_congr_right fun _ => ?_
  cases s.converterOf i <;> simp [not_live_iff]

theorem converterReports_iff (s : State) (x : ConverterStatus) : s.converterReports x = true ↔
    ∃ i : Fin 3, i.val < s.n ∧ ∃ e, s.converterOf i = some e ∧ ¬e.Lost ∧ e.lastStatus = x := by
  simp only [State.converterReports, own_any, Bool.and_eq_true, State.configured, decide_eq_true_eq]
  refine exists_congr fun i => and_congr_right fun _ => ?_
  cases s.converterOf i <;> simp [live_iff]

theorem valveStale_iff (s : State) :
    s.valveStale = true ↔ s.banks.active ≠ none ∧ ∀ e, s.valve = some e → e.Lost := by
  simp only [State.valveStale, Bool.and_eq_true, Option.isSome_iff_ne_none]
  refine and_congr_right fun _ => ?_
  cases s.valve <;> simp [not_live_iff]

theorem radarStale_iff (s : State) : s.radarStale = true ↔ ∃ e, s.stationOfRole .radar = some e ∧ e.Lost := by
  unfold State.radarStale; cases s.stationOfRole .radar <;> simp [not_live_iff]

theorem demandLate_iff (s : State) : s.demandLate = true ↔ ∃ e, s.stationOfRole .cab = some e ∧ e.state = .late := by
  unfold State.demandLate; cases s.stationOfRole .cab <;> simp

theorem congested_iff (s : State) :
    s.congested = true ↔ ∃ p, (s.port p).threshold ≤ (s.port p).forward.length := by
  simp only [State.congested, Bool.or_eq_true, decide_eq_true_eq]
  exact ⟨fun h => h.elim (fun h => ⟨.a, h⟩) (fun h => ⟨.b, h⟩), fun ⟨p, h⟩ => by cases p <;> [exact .inl h; exact .inr h]⟩

theorem mem_allSlots (k : Fin 16) : k ∈ allSlots := by revert k; decide

theorem storeUnavailable_iff (s : State) : s.storeUnavailable = true ↔ s.hist.scan = none ∧
    (∀ k, (s.slot k).header.state ≠ .free) ∧ (s.hist.policy = .stopWhenFull ∨
      ∀ k, (s.slot k).header.state = .complete ∨ (s.slot k).header.state = .incomplete →
        (s.slot k).header.isProtected = true) := by
  simp only [State.storeUnavailable, Bool.and_eq_true, Option.isNone_iff_eq_none, List.all_eq_true, mem_allSlots,
    forall_const, decide_eq_true_eq, Bool.or_eq_true, Header.holdsIncident, Bool.not_eq_true', decide_eq_false_iff_not]
  simp only [and_assoc, or_iff_not_imp_left, not_not]

/-- Settling that has come to its end has handed over the congestion and the store. -/
theorem differs_of_settled {s : State} (h : s.settleOne = none) : s.differs 16 = false ∧ s.differs 18 = false := by
  unfold State.settleOne at h
  cases a : s.differs 16 with
  | true => simp [a] at h
  | false =>
    refine ⟨rfl, ?_⟩
    cases b : s.differs 18 with
    | false => rfl
    | true =>
      simp only [a, b] at h
      split at h <;> try (first | contradiction | cases h)
      split at h
      · cases h
      · split at h
        · cases h
        · split at h <;> simp_all

/-- The condition law, entry by entry. -/
theorem conditionLaw_iff (s : State) : s.ConditionLaw ↔
    (∀ k : Fin 20, k ≠ 16 → k ≠ 18 → (s.entry k).condition = s.sourceValue (k.val + 1)) ∧
      (s.demand.mode ≠ .active → s.air.mismatch = false ∧ s.air.mismatchTimer = none) := by
  constructor
  · intro h
    refine ⟨fun k a b => ?_, h.quiet⟩
    fin_cases k
    · exact Bool.eq_iff_iff.mpr (h.late.trans (demandLate_iff s).symm)
    · exact Bool.eq_iff_iff.mpr (h.penalty.trans (by simp [State.sourceValue, State.demandPenalty]))
    · exact h.emergency
    · exact h.reference
    · exact Bool.eq_iff_iff.mpr (h.radar.trans (radarStale_iff s).symm)
    · exact Bool.eq_iff_iff.mpr ((h.axle (5, .unsensed) (by simp)).trans (axleIn_iff s _).symm)
    · exact Bool.eq_iff_iff.mpr ((h.axle (6, .isolated) (by simp)).trans (axleIn_iff s _).symm)
    · exact Bool.eq_iff_iff.mpr ((h.axle (7, .sliding) (by simp)).trans (axleIn_iff s _).symm)
    · exact Bool.eq_iff_iff.mpr (h.converter.trans (converterStale_iff s).symm)
    · exact Bool.eq_iff_iff.mpr ((h.status (9, .derated) (by simp)).trans (converterReports_iff s _).symm)
    · exact Bool.eq_iff_iff.mpr ((h.status (10, .fault) (by simp)).trans (converterReports_iff s _).symm)
    · exact Bool.eq_iff_iff.mpr (h.valve.trans (valveStale_iff s).symm)
    · exact Bool.eq_iff_iff.mpr (h.mismatch.trans (by simp [State.sourceValue, State.isActive]))
    · exact Bool.eq_iff_iff.mpr (h.exhausted.trans (by simp [State.sourceValue, State.isActive]))
    · exact h.silence.1
    · exact h.silence.2
    · exact absurd rfl a
    · exact h.deferred
    · exact absurd rfl b
    · exact h.never
  · rintro ⟨h, q⟩
    have e : ∀ k : Fin 20, k ≠ 16 → k ≠ 18 → ((s.entry k).condition = true ↔ s.sourceValue (k.val + 1) = true) :=
      fun k a b => by rw [h k a b]
    have d : ∀ k, s.differs k = false → ((s.entry k).condition = true ↔ s.sourceValue (k.val + 1) = true) :=
      fun k a => by rw [show s.sourceValue (k.val + 1) = (s.entry k).condition by simpa [State.differs] using a]
    refine ⟨(e 0 (by decide) (by decide)).trans (demandLate_iff s),
      (e 1 (by decide) (by decide)).trans (by simp [State.sourceValue, State.demandPenalty]),
      h 2 (by decide) (by decide), h 3 (by decide) (by decide), (e 4 (by decide) (by decide)).trans (radarStale_iff s),
      ?_, (e 8 (by decide) (by decide)).trans (converterStale_iff s), ?_,
      (e 11 (by decide) (by decide)).trans (valveStale_iff s),
      (e 12 (by decide) (by decide)).trans (by simp [State.sourceValue, State.isActive]),
      (e 13 (by decide) (by decide)).trans (by simp [State.sourceValue, State.isActive]),
      ⟨h 14 (by decide) (by decide), h 15 (by decide) (by decide)⟩,
      fun t => (d 16 (differs_of_settled t).1).trans (congested_iff s), h 17 (by decide) (by decide),
      fun t => (d 18 (differs_of_settled t).2).trans (storeUnavailable_iff s), h 19 (by decide) (by decide), q⟩
    · intro k hk
      simp only [List.mem_cons, List.not_mem_nil, or_false] at hk
      rcases hk with rfl | rfl | rfl
      · exact (e 5 (by decide) (by decide)).trans (axleIn_iff s _)
      · exact (e 6 (by decide) (by decide)).trans (axleIn_iff s _)
      · exact (e 7 (by decide) (by decide)).trans (axleIn_iff s _)
    · intro k hk
      simp only [List.mem_cons, List.not_mem_nil, or_false] at hk
      rcases hk with rfl | rfl
      · exact (e 9 (by decide) (by decide)).trans (converterReports_iff s _)
      · exact (e 10 (by decide) (by decide)).trans (converterReports_iff s _)

end Sys2Proof.Machine
end

