-- ==== Sys2Proof/Laws/Frames.lean ====
section
/-!
SUPPORT. The frames of Safety.lean from the projections of the laws: what is outer, and what is far, as blocks
that are left as they were; and what the owner of a request finds.
-/

namespace Sys2Proof.Machine

/-- The blocks that the end of any event may touch, as far as their readings say: what an evaluation, a trigger, a
claim or a frame refused a place writes of them. -/
def eventBlocks : List Block := [.drops, .sequencer, .pressure, .handover, .refusals, .cursor, .headers]

/-- The sequencer is kept across two changes that keep it. -/
theorem Air.Keeps.trans {a b c : Air} (h : a.Keeps b) (k : b.Keeps c) : a.Keeps c where
  exhausted := k.exhausted.trans h.exhausted
  dumpStart := k.dumpStart.trans h.dumpStart
  held := k.held.trans h.held
  reapply := k.reapply.trans h.reapply
  state := k.state.elim (fun e => e ▸ h.state) .inr
  used := k.used.elim
    (fun e => h.used.elim (fun f => .inl (e.trans f))
      (fun f => k.state.elim (fun g => .inr ⟨f.1, g.trans f.2⟩) (fun g => .inr ⟨f.1, g⟩)))
    (fun e => h.state.elim (fun f => .inr ⟨f ▸ e.1, e.2⟩) (fun f => by rw [f] at e; cases e.1))
  dumpTimer := k.dumpTimer.elim (fun e => e ▸ h.dumpTimer) .inr
  holdTimer := k.holdTimer.elim (fun e => e ▸ h.holdTimer) .inr
  stepTimer := k.stepTimer.elim (fun e => e ▸ h.stepTimer) .inr

/-- A slot is kept across two changes that keep it. -/
theorem Slot.Keeps.trans {x y z : Slot} (h : x.Keeps y) (k : y.Keeps z) : x.Keeps z where
  header := k.header.elim (fun e => e ▸ h.header) .inr
  ops := h.ops.trans k.ops

/-- Every block is the same in one state. -/
theorem same_refl (s : State) (b : Block) : b.same s s := by
  cases b <;> simp only [Block.same, and_self, implies_true, true_or]
  case drops => exact fun p => Nat.min_le_left _ _
  case refusals => exact ⟨Nat.min_le_left _ _, Nat.min_le_left _ _⟩
  case sequencer => exact ⟨rfl, rfl, rfl, rfl, .inl rfl, .inl rfl, .inl rfl, .inl rfl, .inl rfl⟩
  case headers => exact fun k => ⟨.inl rfl, List.prefix_rfl⟩

/-- What two changes leave, their composition leaves: the hold and the cursor where the clock, the active bank and the
headers are left too. -/
theorem leaves_trans {s t u : State} {l : List Block} (h : s.leaves t l) (k : t.leaves u l)
    (n : .handover ∈ l ∨ (.clock ∉ l ∧ .active ∉ l) := by decide) (m : .cursor ∈ l ∨ .headers ∉ l := by decide) :
    s.leaves u l := by
  intro b hb
  have x := h b hb
  have y := k b hb
  cases b
  case handover =>
    obtain ⟨nc, na⟩ := n.resolve_left hb
    have c : t.clock = s.clock := h .clock nc
    have a := k .active na
    simp only [Block.same] at x y a ⊢
    rw [c] at y
    obtain e | e | e := y
    · rw [e]; obtain f | f | ⟨b, f, g⟩ := x
      · exact .inl f
      · exact .inr (.inl f)
      · exact .inr (.inr ⟨b, a.1.trans f, g⟩)
    · exact .inr (.inl e)
    · exact .inr (.inr e)
  case cursor =>
    have w := k .headers (m.resolve_left hb)
    simp only [Block.same] at x y w ⊢
    obtain e | ⟨e, c, f, g⟩ := y
    · obtain x | ⟨x, c, f, g⟩ := x
      · exact .inl (e.trans x)
      · exact .inr ⟨e.trans x, c, f, (w c.slot).header.elim (fun q => by rw [q]; exact g) id⟩
    · obtain x | ⟨x, _⟩ := x
      · exact .inr ⟨e, c, x ▸ f, g⟩
      · rw [x] at f; cases f
  all_goals simp only [Block.same] at x y ⊢
  case sequencer => exact x.trans y
  case headers => exact fun j => (x j).trans (y j)
  case drops =>
    intro p
    have i := x p
    have j := y p
    omega
  case refusals => omega
  case pressure =>
    exact ⟨y.1.trans x.1, y.2.1.trans x.2.1, y.2.2.1.trans x.2.2.1, y.2.2.2.elim (fun e => e ▸ x.2.2.2) .inr⟩
  case counts => exact fun p => ⟨(y p).1.trans (x p).1, (y p).2.1.trans (x p).2.1, (y p).2.2.1.trans (x p).2.2.1,
    (y p).2.2.2.trans (x p).2.2.2⟩
  case silence => exact fun p => ⟨(y p).1.trans (x p).1, (y p).2.1.trans (x p).2.1, (y p).2.2.trans (x p).2.2⟩
  case thresholds => exact fun p => (y p).trans (x p)
  case efforts => exact fun p => ⟨(y p).1.trans (x p).1, (y p).2.trans (x p).2⟩
  case settings =>
    intro i
    obtain ⟨a, b, c, d, e, f, g, h⟩ := y i
    obtain ⟨a', b', c', d', e', f', g', h'⟩ := x i
    exact ⟨a.trans a', b.trans b', c.trans c', d.trans d', e.trans e', f.trans f', g.trans g', h.trans h'⟩
  case store => exact ⟨y.1.trans x.1, fun k => ⟨(y.2 k).1.trans (x.2 k).1, (y.2 k).2.1.trans (x.2 k).2.1,
    (y.2 k).2.2.trans (x.2 k).2.2⟩⟩
  all_goals simp only [x, y, and_self]

theorem leaves_mono {s t : State} {l m : List Block} (h : s.leaves t l) (k : ∀ b, b ∈ l → b ∈ m) : s.leaves t m :=
  fun b hb => h b (fun x => hb (k b x))

theorem leaves_of_held_eq {s t : State} (h : t.base = s.base) (k : t.slide = s.slide)
    (o : ∀ i, (t.out i).base = (s.out i).base) : s.leaves t eventBlocks := by
  intro b hb
  cases b <;> first | exact absurd (by decide) hb | simp only [Block.same]
  case queue => exact base_pending h
  case clock => exact base_clock h
  case ident => exact base_ident h
  case thresholds => exact fun p => congrArg PortBase.threshold (base_port h p)
  case counts =>
    exact fun p => ⟨congrArg PortBase.crcRejects (base_port h p), congrArg PortBase.lengthRejects (base_port h p),
      congrArg PortBase.framesSent (base_port h p), congrArg PortBase.unknownSources (base_port h p)⟩
  case silence =>
    exact fun p => ⟨congrArg PortBase.lastArrival (base_port h p), congrArg PortBase.silent (base_port h p),
      congrArg PortBase.silenceTimer (base_port h p)⟩
  case slide => exact k
  case efforts => exact fun i => ⟨congrArg OutBase.achieved (o i), congrArg OutBase.status (o i)⟩
  case settings =>
    intro i
    have e := base_entry h i
    exact ⟨congrArg EntryBase.enable e, congrArg EntryBase.invert e, congrArg EntryBase.priority e,
      congrArg EntryBase.path e, congrArg EntryBase.action e, congrArg EntryBase.trigger e,
      congrArg EntryBase.edge e, congrArg EntryBase.force e⟩
  case limiters =>
    exact ⟨congrArg (fun x : Base => x.restrict.limElectric) h, congrArg (fun x : Base => x.restrict.limAir) h⟩
  case recorder =>
    have e := base_hist h
    exact ⟨congrArg RecorderBase.pre e, congrArg RecorderBase.post e, congrArg RecorderBase.policy e,
      congrArg RecorderBase.slidingTrigger e, congrArg RecorderBase.scan e⟩
  case store =>
    exact ⟨base_nvNext h, fun k => ⟨congrArg SlotBase.cells (base_slot h k), congrArg SlotBase.nv (base_slot h k),
      congrArg SlotBase.erase (base_slot h k)⟩⟩
  case mgmt =>
    have e := base_mgmt h
    exact ⟨congrArg MgmtBase.malformed e, congrArg MgmtBase.noticeAddress e, congrArg MgmtBase.noticeSide e,
      congrArg MgmtBase.enables e⟩
  all_goals simp only [base_cls h, base_demand h, base_banks h, and_self]

/-- What is outer is every block but those an event's end may touch. -/
theorem leaves_of_outer {s t : State} (h : t.outer = s.outer) : s.leaves t eventBlocks :=
  leaves_of_held_eq (outer_base h) (outer_slide h) (outer_out h)

/-- Composition with what an event's end keeps. -/
theorem leaves_outer {s x t : State} {l : List Block} (h : s.leaves x (eventBlocks ++ l)) (k : t.outer = x.outer) :
    s.leaves t (eventBlocks ++ l) :=
  leaves_trans h (leaves_mono (leaves_of_outer k) (by simp_all)) (.inl (List.mem_append_left _ (by decide)))
    (.inl (List.mem_append_left _ (by decide)))

/-- Composition with what an event's start keeps. -/
theorem outer_leaves {s x t : State} {l : List Block} (k : x.outer = s.outer) (h : x.leaves t (eventBlocks ++ l)) :
    s.leaves t (eventBlocks ++ l) :=
  leaves_trans (leaves_mono (leaves_of_outer k) (by simp_all)) h (.inl (List.mem_append_left _ (by decide)))
    (.inl (List.mem_append_left _ (by decide)))

/-- The hearing of a frame writes its port's arrival time and silence alone. -/
theorem heard_leaves (s : State) (p : PortId) : s.leaves (s.heard p) [.silence] := by
  intro b hb
  have hp : ∀ q, ((s.heard p).port q).threshold = (s.port q).threshold ∧
      ((s.heard p).port q).crcRejects = (s.port q).crcRejects ∧
      ((s.heard p).port q).lengthRejects = (s.port q).lengthRejects ∧
      ((s.heard p).port q).framesSent = (s.port q).framesSent ∧
      ((s.heard p).port q).unknownSources = (s.port q).unknownSources ∧
      ((s.heard p).port q).forwardDrops = (s.port q).forwardDrops := by
    intro q
    by_cases e : q = p
    · subst e; rw [heard_port]; exact ⟨rfl, rfl, rfl, rfl, rfl, rfl⟩
    · rw [heard_other s e]; exact ⟨rfl, rfl, rfl, rfl, rfl, rfl⟩
  cases b
  case silence => exact absurd (by simp) hb
  case thresholds => exact fun q => (hp q).1
  case counts => exact fun q => ⟨(hp q).2.1, (hp q).2.2.1, (hp q).2.2.2.1, (hp q).2.2.2.2.1⟩
  case drops => exact fun q => by rw [(hp q).2.2.2.2.2]; exact Nat.min_le_left _ _
  all_goals
    have r := fun b => same_refl s b
    first
      | exact r .queue | exact r .clock | exact r .ident | exact r .thresholds | exact r .counts | exact r .drops
      | exact r .silence | exact r .stations | exact r .samples | exact r .radarDoubtful | exact r .matchers
      | exact r .demand | exact r .application | exact r .slide | exact r .sequencer | exact r .pressure
      | exact r .handover | exact r .efforts | exact r .settings | exact r .limiters | exact r .active
      | exact r .staged | exact r .recorder | exact r .refusals | exact r .cursor | exact r .headers | exact r .store | exact r .mgmt

/-- The arrival of a frame writes its port's arrival time and silence alone. -/
theorem arrived_leaves (s : State) (p : PortId) (f : Frame) : s.leaves (s.arrived p f) (eventBlocks ++ [.silence]) :=
  leaves_outer (leaves_mono (heard_leaves s p) (by simp)) (outer_of_held (arrived_held s p f))

/-! ### What the owner of a request finds -/

section
variable (s : State) (h : ReqHead) (code : Byte) (ps : List Byte)

theorem taking_never : ∀ u : State, u.taking neverContinues = (u.withBanks u.banks.cancelLoad).inRequest true :=
  fun _ => rfl

theorem taking_reads (s : State) :
    let u := s.taking neverContinues
    u.pending = s.pending ∧ u.clock = s.clock ∧ u.ident = s.ident ∧ u.cls = s.cls ∧ u.demand = s.demand ∧
      u.banks = s.banks.cancelLoad ∧ u.hist.base = s.hist.base ∧ u.store.base = s.store.base ∧
      u.mgmt.base = s.mgmt.base ∧ u.restrict.base = s.restrict.base ∧ u.slide = s.slide ∧ u.air = s.air ∧
      u.blend = s.blend := ⟨rfl, rfl, rfl, rfl, rfl, rfl, rfl, rfl, rfl, rfl, rfl, rfl, rfl⟩

/-- Reading what the owner of a request finds. -/
theorem finds_reads :
    let u := s.finds h code ps
    u.pending = s.pending ∧ u.clock = s.clock ∧ u.ident = s.ident ∧ u.cls = s.cls ∧ u.demand = s.demand ∧
      u.banks = s.banks.cancelLoad ∧ u.hist.base = s.hist.base ∧ u.store.base = s.store.base ∧
      u.mgmt.base = s.mgmt.base ∧ u.restrict.base = s.restrict.base ∧ u.slide = s.slide ∧ u.air = s.air ∧
      u.blend = s.blend := by
  obtain ⟨a1, a2, a3, a4, a5, a6, a7, a8, a9, a10, a11, a12, a13⟩ :=
    arrived_reads s h.port (requestFrame h code ps)
  obtain ⟨b1, b2, b3, b4, b5, b6, b7, b8, b9, b10, b11, b12, b13⟩ :=
    taking_reads (s.arrived h.port (requestFrame h code ps))
  exact ⟨b1.trans a1, b2.trans a2, b3.trans a3, b4.trans a4, b5.trans a5, b6.trans (congrArg Banks.cancelLoad a6),
    b7.trans a7, b8.trans a8, b9.trans a9, b10.trans a10, b11.trans a11, b12.trans a12, b13.trans a13⟩

theorem finds_cls : (s.finds h code ps).cls = s.cls := (finds_reads s h code ps).2.2.2.1
theorem finds_ident : (s.finds h code ps).ident = s.ident := (finds_reads s h code ps).2.2.1
theorem finds_clock : (s.finds h code ps).clock = s.clock := (finds_reads s h code ps).2.1
theorem finds_demand : (s.finds h code ps).demand = s.demand := (finds_reads s h code ps).2.2.2.2.1
theorem finds_banks : (s.finds h code ps).banks = s.banks.cancelLoad := (finds_reads s h code ps).2.2.2.2.2.1
theorem finds_hist : (s.finds h code ps).hist.base = s.hist.base := (finds_reads s h code ps).2.2.2.2.2.2.1
theorem finds_store : (s.finds h code ps).store.base = s.store.base := (finds_reads s h code ps).2.2.2.2.2.2.2.1
theorem finds_mgmt : (s.finds h code ps).mgmt.base = s.mgmt.base := (finds_reads s h code ps).2.2.2.2.2.2.2.2.1
theorem finds_restrict : (s.finds h code ps).restrict.base = s.restrict.base :=
  (finds_reads s h code ps).2.2.2.2.2.2.2.2.2.1
theorem finds_slide : (s.finds h code ps).slide = s.slide := (finds_reads s h code ps).2.2.2.2.2.2.2.2.2.2.1
theorem finds_now : (s.finds h code ps).now = s.now := by simp only [State.now, finds_clock]
theorem finds_node : (s.finds h code ps).nodeByte = s.nodeByte := nodeByte_of_ident (finds_ident s h code ps)

/-- The open load cancelled, and nothing else of the banks. -/
theorem cancelLoad_active (x : Banks) : x.cancelLoad.active = x.active ∧ x.cancelLoad.adoptions = x.adoptions := by
  unfold Banks.cancelLoad; split <;> exact ⟨rfl, rfl⟩

theorem taking_leaves (u : State) : u.leaves (u.taking neverContinues) [.staged] := by
  intro b hb
  rw [taking_never]
  cases b
  case staged => exact absurd (by simp) hb
  case active => exact cancelLoad_active u.banks
  case handover =>
    obtain h := cancelLoad_active u.banks
    simp only [Block.same]
    exact .inl rfl
  all_goals
    have r := fun b => same_refl u b
    first
      | exact r .queue | exact r .clock | exact r .ident | exact r .thresholds | exact r .counts | exact r .drops
      | exact r .silence | exact r .stations | exact r .samples | exact r .radarDoubtful | exact r .matchers
      | exact r .demand | exact r .application | exact r .slide | exact r .sequencer | exact r .pressure
      | exact r .handover | exact r .efforts | exact r .settings | exact r .limiters | exact r .active
      | exact r .staged | exact r .recorder | exact r .refusals | exact r .cursor | exact r .headers | exact r .store | exact r .mgmt

/-- What the owner of a request finds differs from what stood before in the port's silence and the open load
alone. -/
theorem finds_leaves : s.leaves (s.finds h code ps) (eventBlocks ++ requestBlocks) :=
  leaves_trans (leaves_mono (arrived_leaves s h.port (requestFrame h code ps)) (by decide))
    (leaves_mono (taking_leaves _) (by decide))
end

/-- A request whose owner keeps everything that is outer. -/
theorem request_reads (s : State) (h : ReqHead) (code : Byte) (ps : List Byte) (take : State → Taken)
    (v : s.Served h) (o : (take (s.finds h code ps)).1 = s.finds h code ps) :
    s.leaves (s.request h code ps neverContinues take) (eventBlocks ++ requestBlocks) ∧
      (s.request h code ps neverContinues take).banks = s.banks.cancelLoad ∧
      s.answers (s.request h code ps neverContinues take) h code (take (s.finds h code ps)).2.status
        (take (s.finds h code ps)).2.data := by
  have r := request_served s h code ps neverContinues take v (by
    show Room (s.finds h code ps) (take (s.finds h code ps)).1
    rw [o]; exact Room.refl _) (fun _ => by
    show LeavesPort _ ((take (s.finds h code ps)).1.port h.port)
    rw [o]; exact ⟨rfl, rfl, rfl⟩)
  have r1 : (s.request h code ps neverContinues take).outer = (s.finds h code ps).outer := by
    rw [← o]; exact r.1
  exact ⟨leaves_outer (finds_leaves s h code ps) r1, (base_banks (outer_base r1)).trans (finds_banks s h code ps), r.2⟩

end Sys2Proof.Machine
end

