-- ==== Sys2Proof/Laws/Walk.lean ====
section
/-!
SUPPORT. A walk over the device's operations, made once for every relation between the states before and after:
a relation that is reflexive and transitive, and that each primitive operation gives, holds across every operation
made of them. Invariants and growth laws are its instances.
-/

namespace Sys2Proof.Machine

/-- A change of a port outside its queues, its transmitter and its threshold. -/
structure Calm (x y : Port) : Prop where
  command : y.command = x.command
  forward : y.forward = x.forward
  tx : y.tx = x.tx
  fairness : y.fairness = x.fairness
  threshold : y.threshold = x.threshold

/-- A relation that the primitive operations of the device's blocks give. -/
structure Walk (R : State → State → Prop) : Prop where
  refl : ∀ s, R s s
  trans : ∀ {s t u}, R s t → R t u → R s u
  cls : ∀ s x, R s (s.withCls x)
  demand : ∀ s (x : Demand), x.mode = s.demand.mode ∨ x.mode = .active → R s (s.withDemand x)
  slide : ∀ s x, R s (s.withSlide x)
  air : ∀ s x, R s (s.withAir x)
  blend : ∀ s x, R s (s.withBlend x)
  banks : ∀ s x, R s (s.withBanks x)
  work : ∀ s x, R s (s.withWork x)
  link : ∀ s (x : Link), Calm s.link.a x.a → Calm s.link.b x.b → x.seq = s.link.seq → R s (s.withLink x)
  record : ∀ s k b d, d.length ≤ 14 → R s (s.writeRecord k b d)
  trigger : ∀ s x b, R s (s.sendTrigger x b)
  notice : ∀ s k b v, R s (s.placeNotice k b v)
  settle : ∀ s, R s s.settle
  handOn : ∀ s ks, R s (s.handOn ks)
  command : ∀ s p c, s.demand.mode = .active → R s (s.offerCommand p c)
  leave : ∀ s, R s s.leaveActive
  forward : ∀ s p f, R s (s.offerForwarded p f)

section
variable {R : State → State → Prop} (w : Walk R)
include w

theorem Walk.andThen {s t u : State} (h : R s t) (k : R t u) : R s u := w.trans h k

theorem Walk.foldl {α : Type} (f : State → α → State) (h : ∀ s a, R s (f s a)) (l : List α) (s : State) :
    R s (l.foldl f s) := by
  induction l generalizing s with
  | nil => exact w.refl s
  | cons a l ih => exact w.trans (h s a) (ih _)

theorem Walk.callEvalIf (s : State) (c : Bool) : R s (s.callEvalIf c) := by
  unfold State.callEvalIf; split
  · exact w.work s _
  · exact w.refl s

theorem Walk.putAir (s : State) (a : Air) : R s (s.putAir a) := w.air s a
theorem Walk.putOut (s : State) (i : Fin 3) (x : AxleOut) : R s (s.putOut i x) := w.blend s _
theorem Walk.putAxle (s : State) (i : Fin 3) (r : SlideRecord) : R s (s.putAxle i r) := w.slide s _
theorem Walk.putSample (s : State) (g : Fin 12) (x : AxleSample) : R s (s.putSample g x) := w.cls s _
theorem Walk.mapStation (s : State) (a : Byte) (f : Station → Station) : R s (s.mapStation a f) := w.cls s _

theorem Walk.putPort (s : State) (p : PortId) (x : Port) (c : Calm (s.port p) x) : R s (s.putPort p x) := by
  cases p
  · exact w.link s _ c ⟨rfl, rfl, rfl, rfl, rfl⟩ rfl
  · exact w.link s _ ⟨rfl, rfl, rfl, rfl, rfl⟩ c rfl

/-! ### The evaluation -/

theorem Walk.recordAir (s : State) (o : AirState) (a : Air) : R s (s.recordAir o a) :=
  w.record s _ _ _ (by simp [be16])

theorem Walk.handStage8 (s : State) (o : AirState) : R s (s.handStage8 o) := by
  unfold State.handStage8; split
  · exact w.refl s
  · exact w.trans (w.recordAir s _ _) (w.handOn _ _)

theorem Walk.handPOut (s : State) (n : Nat) : R s (s.handPOut n) := by
  unfold State.handPOut; split
  · exact w.refl s
  · exact w.putAir s _

theorem Walk.sendEffort (s : State) (i : Fin 3) (m : s.demand.mode = .active) : R s (s.sendEffort i) := by
  unfold State.sendEffort; split
  · split
    · exact w.refl s
    · exact w.trans (w.putOut s i _) (w.command _ _ _ m)
  · exact w.refl s

theorem Walk.sendPressure (s : State) (m : s.demand.mode = .active) : R s s.sendPressure := by
  unfold State.sendPressure; split
  · split
    · exact w.refl s
    · exact w.trans (w.blend s _) (w.command _ _ _ m)
  · exact w.refl s

omit w in
theorem mode_of_outer {s t : State} (h : t.outer = s.outer) (m : s.demand.mode = .active) : t.demand.mode = .active := by
  rw [base_demand (outer_base h)]; exact m

theorem Walk.sendOutputs (s : State) (m : s.demand.mode = .active) : R s s.sendOutputs := by
  have m1 := mode_of_outer (sendEffort_outer s 0) m
  have m2 := mode_of_outer (sendEffort_outer _ 1) m1
  have m3 := mode_of_outer (sendEffort_outer _ 2) m2
  exact w.trans (w.trans (w.trans (w.sendEffort s 0 m) (w.sendEffort _ 1 m1)) (w.sendEffort _ 2 m2))
    (w.sendPressure _ m3)

theorem Walk.recordBlend (s : State) : R s s.recordBlend := w.record s _ _ _ (by simp [be16])

theorem Walk.evaluateOn (s : State) (b : Tables) (c : Bool) (m : s.demand.mode = .active) :
    R s (s.evaluateOn b c) := by
  have step : ∀ a : Air, R s (((((s.putAir a).withBlend (s.newBlend b (s.blendWork b) a c)).handStage8
      s.air.state).handPOut s.blend.pressure.content.pressure).sendOutputs) := fun a => by
    have h1 : R s ((s.putAir a).withBlend (s.newBlend b (s.blendWork b) a c)) := w.trans (w.putAir s a) (w.blend _ _)
    have h2 := w.trans (w.trans h1 (w.handStage8 _ s.air.state)) (w.handPOut _ s.blend.pressure.content.pressure)
    refine w.trans h2 (w.sendOutputs _ ?_)
    have d : ∀ x : State, x.demand.mode = .active → ∀ o n, ((x.handStage8 o).handPOut n).demand.mode = .active :=
      fun x mx o n => mode_of_outer (handPOut_outer _ n) (mode_of_outer (handStage8_outer x o) mx)
    exact d ((s.putAir a).withBlend (s.newBlend b (s.blendWork b) a c)) m _ _
  unfold State.evaluateOn
  dsimp only
  split
  · exact w.trans (step _) (w.recordBlend _)
  · exact step _

theorem Walk.evaluate (s : State) (c : Bool) : R s (s.evaluate c) := by
  unfold State.evaluate; split
  · split
    · next h => exact w.evaluateOn s _ c (of_decide_eq_true h)
    · exact w.refl s
  · exact w.refl s

theorem Walk.evaluateIfDue (s : State) : R s s.evaluateIfDue := by
  unfold State.evaluateIfDue; split
  · exact w.trans (w.work s _) (w.evaluate _ _)
  · exact w.refl s

/-- The end of an event. -/
theorem Walk.finish (s : State) : R s s.finish :=
  w.trans (w.trans (w.trans (w.settle s) (w.evaluateIfDue _)) (w.settle _)) (w.work _ _)

/-! ### Sequencer, slide and reference -/

theorem Walk.moveAir (s : State) (a : Air) : R s (s.moveAir a) := by
  unfold State.moveAir; dsimp only
  refine w.trans (w.trans (w.putAir s a) ?_) (w.trans (w.handOn _ [14]) (w.callEvalIf _ _))
  split
  · exact w.refl _
  · exact w.recordAir _ _ _

theorem Walk.handSlide (s : State) (c : Bool) : R s (s.handSlide c) := by
  unfold State.handSlide; split
  · exact w.moveAir s _
  · exact w.refl s

theorem Walk.recordAxle (s : State) (i : Fin 3) (o : SlideState) (r : SlideRecord) (v : Nat) :
    R s (s.recordAxle i o r v) := w.record s _ _ _ (by simp [be16])

theorem Walk.changeAxle (s : State) (i : Fin 3) (v : Nat) (r : SlideRecord) : R s (s.changeAxle i v r) := by
  unfold State.changeAxle; dsimp only
  split
  · exact w.putAxle s i r
  · refine w.trans (w.putAxle s i r) (w.trans ?_ (w.recordAxle _ _ _ _ _))
    split
    · exact w.trigger _ _ _
    · exact w.refl _

theorem Walk.handAxles (s : State) (c d : Bool) : R s (s.handAxles c d) :=
  w.trans (w.trans (w.handOn s _) (w.handSlide _ c)) (w.callEvalIf _ d)

theorem Walk.singleAxle (s : State) (i : Fin 3) (r : SlideRecord) : R s (s.singleAxle i r) :=
  w.trans (w.changeAxle s i _ r) (w.handAxles _ _ _)

theorem Walk.returnAxle (s : State) (i : Fin 3) : R s (s.returnAxle i) := by
  unfold State.returnAxle; dsimp only
  split
  · exact w.trans (w.changeAxle s i _ _) (w.changeAxle _ i _ _)
  · exact w.changeAxle s i _ _

theorem Walk.recordSpeed (s : State) (c : Nat) (r : Bool) (n : Nat) : R s (s.recordSpeed c r n) := by
  unfold State.recordSpeed; split
  · exact w.refl s
  · split
    · exact w.trans (w.slide s _) (w.record _ _ _ _ (by simp [be16]))
    · exact w.refl s

theorem Walk.updateReference (s : State) : R s s.updateReference := by
  unfold State.updateReference; split
  · exact w.refl s
  · exact w.trans (w.trans (w.trans (w.slide s _) (w.recordSpeed _ _ _ _)) (w.handOn _ _)) (w.work _ _)

theorem Walk.evaluateSample (x : State × Bool × Bool) (g : Fin 12) (v : Nat) :
    R x.1 (State.evaluateSample x g v).1 := by
  unfold State.evaluateSample; dsimp only
  split
  · split
    · exact w.foldl _ (fun s q => w.changeAxle s _ _ q) _ _
    · exact w.refl _
  · exact w.refl _

theorem Walk.evaluateSamples (s : State) (l : List (Fin 12 × Nat)) : R s (s.evaluateSamples l) := by
  have h : ∀ (l : List (Fin 12 × Nat)) (x : State × Bool × Bool),
      R x.1 (l.foldl (fun y p => State.evaluateSample y p.1 p.2) x).1 := by
    intro l
    induction l with
    | nil => intro x; exact w.refl _
    | cons a l ih => intro x; exact w.trans (w.evaluateSample x a.1 a.2) (ih _)
  exact w.trans (h l (s, false, false)) (w.handAxles _ _ _)

theorem Walk.loseAxle (s : State) (g : Fin 12) : R s (s.loseAxle g) := by
  unfold State.loseAxle; split
  · split
    · exact w.singleAxle s _ _
    · exact w.refl s
  · exact w.refl s

theorem Walk.takePressure (s : State) (n : Nat) (v : ValveStatus) : R s (s.takePressure n v) := by
  unfold State.takePressure; dsimp only
  split
  · exact w.putAir s _
  · split
    · exact w.trans (w.putAir s _) (w.handOn _ _)
    · exact w.putAir s _

/-! ### Modes, adoption, applications -/

theorem Walk.recordMode (s : State) (a b c d : Byte) : R s (s.recordMode a b c d) :=
  w.record s _ _ _ (by simp [be32])

theorem Walk.unsenseAxle (s : State) (i : Fin 3) : R s (s.unsenseAxle i) := by
  unfold State.unsenseAxle; split
  · exact w.changeAxle s i _ _
  · exact w.refl s

theorem Walk.enterActive (s : State) (m : Mode) : R s (s.enterActive m) := by
  unfold State.enterActive; dsimp only
  have h := w.trans (w.trans (w.trans (w.demand s { s.demand with mode := .active } (Or.inr rfl))
    (w.foldl _ w.unsenseAxle ownAxles _)) (w.handOn _ [6, 7, 8, 14]))
    (w.recordMode _ 1 m.code Mode.active.code causeNone)
  split
  · exact w.trans h (w.work _ _)
  · exact w.trans (w.trans h (w.notice _ _ _ _)) (w.work _ _)

theorem Walk.adoptAxle (n : Nat) (s : State) (i : Fin 3) : R s (State.adoptAxle n s i) := by
  unfold State.adoptAxle; split
  · exact w.changeAxle s i _ _
  · split
    · dsimp only
      split
      · exact w.trans (w.putAxle s i _) (w.changeAxle _ i _ _)
      · exact w.putAxle s i _
    · exact w.refl s

theorem Walk.rearm (s : State) (n m : Time) (k l : Nat) :
    R s (s.withLink { s.link with a := s.link.a.rearm n k, b := s.link.b.rearm m l }) :=
  w.link s _ ⟨rfl, rfl, rfl, rfl, rfl⟩ ⟨rfl, rfl, rfl, rfl, rfl⟩ rfl

theorem Walk.adoptEnd (s x : State) (h : R s x) :
    R s (if x.demand.mode = .transparent then x.enterActive .transparent else x).callEval := by
  refine w.trans h (w.trans ?_ (w.work _ _))
  split
  · exact w.enterActive _ _
  · exact w.refl _

theorem Walk.adopt (s : State) : R s s.adopt := by
  unfold State.adopt; dsimp only
  refine w.adoptEnd s _ ?_
  refine w.trans ?_ (w.handOn _ _)
  refine w.trans ?_ (w.handAxles _ _ _)
  refine w.trans ?_ (w.foldl _ (w.adoptAxle s.n) ownAxles _)
  refine w.trans ?_ (w.handOn _ _)
  refine w.trans ?_ (w.slide _ _)
  refine w.trans ?_ (w.handOn _ _)
  refine w.trans ?_ (w.handOn _ _)
  refine w.trans ?_ (w.handOn _ _)
  refine w.trans ?_ (w.rearm _ _ _ _ _)
  exact w.trans (w.banks s _) (w.handOn _ _)

theorem Walk.releaseAxle (s : State) (i : Fin 3) : R s (s.releaseAxle i) := by
  unfold State.releaseAxle; split
  · exact w.returnAxle s i
  · exact w.refl s

theorem Walk.releaseEnd (s x : State) (h : R s x) : R s (if x.banks.pendingAdoption then x.adopt else x) := by
  split
  · exact w.trans h (w.adopt _)
  · exact h

theorem Walk.enterReleased (s : State) (c : Byte) : R s (s.enterReleased c) := by
  unfold State.enterReleased; dsimp only
  refine w.releaseEnd s _ ?_
  refine w.trans ?_ (w.handAxles _ _ _)
  refine w.trans ?_ (w.foldl _ w.releaseAxle ownAxles _)
  refine w.trans ?_ (w.handOn _ _)
  refine w.trans ?_ (w.putAir _ _)
  exact w.trans (w.demand s { s.demand with app := .released, releaseTimer := none } (Or.inl rfl))
    (w.recordMode _ _ _ _ _)

theorem Walk.openApplication (s : State) : R s s.openApplication :=
  w.trans (w.demand s { s.demand with app := .applied, appNumber := s.demand.appNumber + 1 } (Or.inl rfl))
    (w.recordMode _ _ _ _ _)

theorem Walk.beginRelease (s : State) : R s s.beginRelease := by
  unfold State.beginRelease; dsimp only
  have h : ∀ x, R s x → R s (if x.isActive then x else x.enterReleased causeNotDriven) := by
    intro x hx
    split
    · exact hx
    · exact w.trans hx (w.enterReleased _ _)
  exact h _ (w.trans (w.demand s { s.demand with app := .releasing, releaseTimer := s.releaseTimer } (Or.inl rfl))
    (w.recordMode _ 0 AppState.applied.code AppState.releasing.code causeNone))

theorem Walk.resumeApplication (s : State) : R s s.resumeApplication :=
  w.trans (w.demand s { s.demand with app := .applied, releaseTimer := none } (Or.inl rfl)) (w.recordMode _ _ _ _ _)

theorem Walk.testApplication (s : State) : R s s.testApplication := by
  unfold State.testApplication; split
  · exact w.openApplication s
  · exact w.refl s
  · exact w.refl s
  · exact w.beginRelease s
  · exact w.resumeApplication s
  · exact w.refl s

theorem Walk.handDemand (s : State) (c : Bool) : R s (s.handDemand c) :=
  w.trans (w.trans (w.handOn s _) (w.testApplication _)) (w.callEvalIf _ c)

theorem Walk.takeHold (s : State) (h : Hold) : R s (s.takeHold h) :=
  w.trans (w.demand s { s.demand with hold := h } (Or.inl rfl)) (w.handDemand _ _)

theorem Walk.cabChanged (s : State) : R s s.cabChanged :=
  w.trans (w.demand s s.demand.restarted (Or.inl (by unfold Demand.restarted; split <;> rfl))) (w.handDemand _ _)

theorem Walk.takeDemand (s : State) (a : Byte) (l i : Nat) (f : Byte) : R s (s.takeDemand a l i f) := by
  unfold State.takeDemand; dsimp only
  refine w.trans ?_ (w.handDemand _ _)
  refine w.trans ?_ (w.record _ _ _ _ (by simp [be16]))
  have h := w.demand s (s.demand.taken l i f (decide (s.slide.vref < s.vMin))) (Or.inl rfl)
  split
  · exact w.trans h (w.trigger _ _ _)
  · exact h

theorem Walk.confirmRelease (s : State) (n : Nat) : R s (s.confirmRelease n) := by
  unfold State.confirmRelease; split
  · split
    · exact w.enterReleased s _
    · exact w.refl s
  · exact w.refl s

/-! ### The classifier -/

theorem Walk.acceptStation (s : State) (e : Station) (f : Station → Station) : R s (s.acceptStation e f) :=
  w.trans (w.trans (w.mapStation s _ f) (w.handOn _ _)) (w.callEvalIf _ _)

theorem Walk.police (s : State) (p : PortId) (src seq : Byte) (role : Role) (ok : Bool) (bound : Station → Bool)
    (accept : Station → State) (h : ∀ e, R s (accept e)) : R s (s.police p src seq role ok bound accept) := by
  unfold State.police; split
  · exact w.putPort s p _ ⟨rfl, rfl, rfl, rfl, rfl⟩
  · next e _ =>
    split
    · exact w.mapStation s _ _
    · split
      · exact w.mapStation s _ _
      · split
        · exact w.mapStation s _ _
        · split
          · exact w.mapStation s _ _
          · split
            · exact w.mapStation s _ _
            · exact h e

theorem Walk.policeMisformed (s : State) (p : PortId) (src seq : Byte) (role : Role) :
    R s (s.policeMisformed p src seq role) := w.police s p src seq role _ _ _ (fun _ => w.refl s)

theorem Walk.consumeDemand (s : State) (p : PortId) (src seq : Byte) (l i : BitVec 16) (f : Byte) :
    R s (s.consumeDemand p src seq l i f) :=
  w.police s p src seq _ _ _ _ (fun e => w.trans (w.acceptStation s e _) (w.takeDemand _ _ _ _ _))

theorem Walk.takeSample (e : Station) (s : State) (x : GoodSample) : R s (State.takeSample e s x) := by
  unfold State.takeSample; split <;> exact w.putSample s _ _

theorem Walk.takeSamples (s : State) (e : Station) (xs : List GoodSample) : R s (s.takeSamples e xs) :=
  w.trans (w.trans (w.foldl _ (w.takeSample e) xs s) (w.updateReference _)) (w.evaluateSamples _ _)

theorem Walk.consumeSpeeds (s : State) (p : PortId) (src seq : Byte) (xs : List SpeedSample) :
    R s (s.consumeSpeeds p src seq xs) :=
  w.police s p src seq _ _ _ _ (fun e => w.trans (w.acceptStation s e _) (w.takeSamples _ _ _))

theorem Walk.consumeGround (s : State) (p : PortId) (src seq : Byte) (v : BitVec 16) (q : Byte) :
    R s (s.consumeGround p src seq v q) :=
  w.police s p src seq _ _ _ _ (fun e => by
    split
    · exact w.trans (w.acceptStation s e _) (w.trans (w.slide _ _) (w.updateReference _))
    · exact w.trans (w.mapStation s _ _) (w.cls _ _))

theorem Walk.takeEffort (s : State) (a e : Nat) (st : ConverterStatus) : R s (s.takeEffort a e st) := by
  unfold State.takeEffort; split
  · exact w.trans (w.putOut s _ _) (w.callEvalIf _ _)
  · exact w.refl s

theorem Walk.consumeEffort (s : State) (p : PortId) (src seq a : Byte) (e : BitVec 16) (st : Byte) :
    R s (s.consumeEffort p src seq a e st) := by
  unfold State.consumeEffort; split
  · exact w.police s p src seq _ _ _ _ (fun e => w.trans (w.acceptStation s e _) (w.takeEffort _ _ _ _))
  · exact w.policeMisformed s p src seq _

theorem Walk.takeReport (s : State) (b n : Nat) (st : ValveStatus) : R s (s.takeReport b n st) := by
  unfold State.takeReport; split
  · exact w.trans (w.takePressure s _ _) (w.confirmRelease _ _)
  · exact w.refl s

theorem Walk.consumePressure (s : State) (p : PortId) (src seq b : Byte) (v : BitVec 16) (st : Byte) :
    R s (s.consumePressure p src seq b v st) := by
  unfold State.consumePressure; split
  · exact w.police s p src seq _ _ _ _ (fun e => w.trans (w.acceptStation s e _) (w.takeReport _ _ _ _))
  · exact w.policeMisformed s p src seq _

theorem Walk.consumePeer (s : State) (p : PortId) (src seq : Byte) : R s (s.consumePeer p src seq) := by
  unfold State.consumePeer; split
  · exact w.refl s
  · split
    · exact w.refl s
    · split
      · exact w.mapStation s _ _
      · split
        · exact w.mapStation s _ _
        · exact w.acceptStation s _ _

theorem Walk.leaveFresh (s : State) (e : Station) : R s (s.leaveFresh e) := by
  unfold State.leaveFresh; split
  · exact w.putAir s _
  · exact w.refl s

theorem Walk.cabMoved (s : State) (x : StationState) : R s (s.cabMoved x) := by
  unfold State.cabMoved; split
  · exact w.refl s
  · exact w.refl s
  · exact w.takeHold s _
  · exact w.takeHold s _

theorem Walk.moveStation (s : State) (e e' : Station) : R s (s.moveStation e e') := by
  unfold State.moveStation; dsimp only
  refine w.trans ?_ (w.callEvalIf _ _)
  refine w.trans ?_ (w.handOn _ _)
  have h := w.trans (w.mapStation s e.address (fun _ => e')) (w.leaveFresh _ e)
  split
  · exact w.trans h (w.cabMoved _ _)
  · exact h

theorem Walk.expireFresh (s : State) (a : Byte) : R s (s.expireFresh a) := by
  unfold State.expireFresh; split
  · split
    · exact w.moveStation s _ _
    · exact w.refl s
  · exact w.refl s

theorem Walk.expireConceal (s : State) (a : Byte) : R s (s.expireConceal a) := by
  unfold State.expireConceal; split
  · split
    · exact w.moveStation s _ _
    · exact w.refl s
  · exact w.refl s

theorem Walk.expireSample (s : State) (g : Fin 12) : R s (s.expireSample g) := by
  unfold State.expireSample; dsimp only; split
  · split
    · exact w.trans (w.putSample s g _) (w.loseAxle _ g)
    · exact w.putSample s g _
  · exact w.refl s

theorem Walk.expireSampleConceal (s : State) (g : Fin 12) : R s (s.expireSampleConceal g) := by
  unfold State.expireSampleConceal; dsimp only; split
  · exact w.trans (w.putSample s g _) (w.loseAxle _ g)
  · exact w.refl s

theorem Walk.dropSample (s : State) (g : Fin 12) : R s (s.dropSample g) :=
  w.trans (w.putSample s g _) (w.loseAxle _ g)

theorem Walk.editConverter (s : State) (e : Station) : R s (s.editConverter e) := by
  unfold State.editConverter; split
  · refine w.foldl _ (fun t i => ?_) _ _
    split
    · exact w.trans (w.putOut t i _) (w.work _ _)
    · exact w.refl t
  · exact w.refl s

theorem Walk.editValve (s : State) (e : Station) : R s (s.editValve e) := by
  unfold State.editValve; split
  · exact w.trans (w.blend s _) (w.work _ _)
  · exact w.refl s

theorem Walk.edited (s : State) (es : List Station) (old : Option Station) : R s (s.edited es old) := by
  unfold State.edited; dsimp only
  have h1 := w.foldl _ w.dropSample (es.flatMap Station.unitAxles) s
  have h2 : R s (if es.any (fun e => decide (e.role = .cab))
      then ((es.flatMap Station.unitAxles).foldl State.dropSample s).cabChanged
      else (es.flatMap Station.unitAxles).foldl State.dropSample s) := by
    split
    · exact w.trans h1 (w.cabChanged _)
    · exact h1
  have h3 := w.trans (w.trans h2 (w.foldl _ w.editConverter es _)) (w.foldl _ w.editValve es _)
  cases old with
  | none => exact w.trans h3 (w.handOn _ _)
  | some e => exact w.trans (w.trans h3 (w.leaveFresh _ e)) (w.handOn _ _)

/-! ### Banks -/

theorem Walk.withdraw (s : State) : R s s.withdraw := by
  unfold State.withdraw; split
  · exact w.trans (w.banks s _) (w.handOn _ _)
  · exact w.refl s

/-! ### Arrivals -/

theorem Walk.heard (s : State) (p : PortId) : R s (s.heard p) := w.putPort s p _ ⟨rfl, rfl, rfl, rfl, rfl⟩

theorem Walk.testMatches (s : State) (f : Frame) : R s (s.testMatches f) := by
  refine w.foldl _ (fun t k => ?_) _ _
  unfold State.testMatch; split
  · exact w.trans (w.trigger t _ _) (w.record _ _ _ _ (by simp [padTo]))
  · exact w.refl t

theorem Walk.forwardFrame (s : State) (p : PortId) (f : Frame) : R s (s.forward p f) := by
  unfold State.forward; split
  · exact w.refl s
  · exact w.forward s _ f

theorem Walk.arrived (s : State) (p : PortId) (f : Frame) : R s (s.arrived p f) := by
  unfold State.arrived
  refine w.trans ?_ (w.settle _)
  refine w.trans ?_ (w.forwardFrame _ p f)
  refine w.trans ?_ (w.settle _)
  refine w.trans ?_ (w.testMatches _ f)
  exact w.trans (w.heard s p) (w.handOn _ _)

theorem Walk.arrive (s : State) (p : PortId) (f : Frame) (consume : State → State) (h : ∀ t, R t (consume t)) :
    R s (s.arrive p f consume) := w.trans (w.trans (w.arrived s p f) (h _)) (w.finish _)

theorem Walk.cancelLoad (s : State) : R s s.cancelLoad := w.banks s _

theorem Walk.taking (s : State) (c : State → Bool) : R s (s.taking c) := by
  unfold State.taking
  refine w.trans ?_ (w.work _ _)
  split
  · exact w.refl s
  · exact w.cancelLoad s

end

end Sys2Proof.Machine
end

