-- ==== Sys2Proof/Laws/Recorder.lean ====
section
/-!
SUPPORT. What the recorder's operations leave alone: records, triggers, the opening and committing of incidents and
the operations of slots write the recorder, the store and the working flags, and of the ring only a record is added.
Then what settling and handing on give, from what their parts give.
-/

namespace Sys2Proof.Machine

/-! ### Apart from the recorder -/

/-- What the recorder's operations leave alone. -/
structure Apart where
  pending : List Instr
  clock : Clock
  ident : Ident
  link : Link
  cls : Classifier
  demand : Demand
  slide : Slide
  air : Air
  blend : Blend
  restrict : Restrict
  banks : Banks
  mgmt : Mgmt

def State.apart (s : State) : Apart :=
  ⟨s.pending, s.clock, s.ident, s.link, s.cls, s.demand, s.slide, s.air, s.blend, s.restrict, s.banks, s.mgmt⟩

@[simp] theorem withHist_apart (s : State) (x : Recorder) : (s.withHist x).apart = s.apart := rfl
@[simp] theorem withStore_apart (s : State) (x : Store) : (s.withStore x).apart = s.apart := rfl
@[simp] theorem withWork_apart (s : State) (x : Work) : (s.withWork x).apart = s.apart := rfl
@[simp] theorem drawNv_apart (s : State) : s.drawNv.apart = s.apart := rfl
@[simp] theorem putSlot_apart (s : State) (k : Fin 16) (x : Slot) : (s.putSlot k x).apart = s.apart := rfl
@[simp] theorem pushOp_apart (s : State) (k : Fin 16) (a : HeaderOpKind) (c : Header) :
    (s.pushOp k a c).apart = s.apart := rfl
@[simp] theorem putHeader_apart (s : State) (k : Fin 16) (h : Header) : (s.putHeader k h).apart = s.apart := rfl
@[simp] theorem popOp_apart (s : State) (k : Fin 16) (op : HeaderOp) : (s.popOp k op).apart = s.apart := by
  obtain ⟨x, e⟩ := popOp_store s k op; rw [e]; rfl
@[simp] theorem putIncident_apart (s : State) (i : Incident) : (s.putIncident i).apart = s.apart := rfl
@[simp] theorem commitFrom_apart (s : State) (i : Incident) (k : Nat) : (s.commitFrom i k).apart = s.apart := by
  unfold State.commitFrom; split <;> simp
@[simp] theorem startCommit_apart (s : State) (i : Incident) : (s.startCommit i).apart = s.apart := by
  unfold State.startCommit; split <;> simp
@[simp] theorem beginCommit_apart (s : State) (i : Incident) : (s.beginCommit i).apart = s.apart := by
  unfold State.beginCommit; dsimp only; split <;> simp
@[simp] theorem appendPost_apart (s : State) (r : Record) : (s.appendPost r).apart = s.apart := by
  unfold State.appendPost
  split
  · split
    · dsimp only; split <;> simp
    · rfl
  · rfl
@[simp] theorem writeRecord_apart (s : State) (k : RecordKind) (b : Byte) (d : List Byte) :
    (s.writeRecord k b d).apart = s.apart := by simp [State.writeRecord]
@[simp] theorem leaveSlot_apart (s : State) (k : Fin 16) : (s.leaveSlot k).apart = s.apart := by
  unfold State.leaveSlot; split
  · split <;> rfl
  · rfl
@[simp] theorem note_apart (s : State) (o : TriggerOutcome) : (s.note o).apart = s.apart := rfl
@[simp] theorem openOn_apart (s : State) (g : Trigger) (k : Fin 16) : (s.openOn g k).apart = s.apart := by
  unfold State.openOn; dsimp only; split <;> simp
@[simp] theorem openIncident_apart (s : State) (g : Trigger) : (s.openIncident g).apart = s.apart := by
  unfold State.openIncident; split <;> simp
@[simp] theorem joinTrigger_apart (s : State) (g : Trigger) : (s.joinTrigger g).apart = s.apart := by
  unfold State.joinTrigger; split <;> simp
@[simp] theorem dropTrigger_apart (s : State) : s.dropTrigger.apart = s.apart := by
  unfold State.dropTrigger; dsimp only; split <;> simp
@[simp] theorem queueTrigger_apart (s : State) (g : Trigger) : (s.queueTrigger g).apart = s.apart := by
  unfold State.queueTrigger; split <;> simp
@[simp] theorem takeTrigger_apart (s : State) (g : Trigger) : (s.takeTrigger g).apart = s.apart := by
  unfold State.takeTrigger; split <;> simp
@[simp] theorem sendTrigger_apart (s : State) (x : TriggerSource) (b : Byte) : (s.sendTrigger x b).apart = s.apart := by
  simp [State.sendTrigger]

theorem foldl_apart {α : Type} (f : State → α → State) (h : ∀ s a, (f s a).apart = s.apart) (l : List α) (s : State) :
    (l.foldl f s).apart = s.apart := by
  induction l generalizing s with
  | nil => rfl
  | cons a l ih => rw [List.foldl_cons, ih, h]

@[simp] theorem serveFrom_apart (s : State) (l : List Trigger) : (s.serveFrom l).apart = s.apart := by
  induction l generalizing s with
  | nil => rfl
  | cons g gs ih =>
    unfold State.serveFrom; dsimp only
    split
    · rw [ih]; simp
    · rw [foldl_apart _ joinTrigger_apart]; simp
    · simp
@[simp] theorem serveQueue_apart (s : State) : s.serveQueue.apart = s.apart := by
  unfold State.serveQueue; split
  · simp
  · rw [foldl_apart _ joinTrigger_apart]; simp
  · rfl

@[simp] theorem writeRecord_restrict (s : State) (k : RecordKind) (b : Byte) (d : List Byte) :
    (s.writeRecord k b d).restrict = s.restrict := congrArg Apart.restrict (writeRecord_apart s k b d)
@[simp] theorem writeRecord_mgmt (s : State) (k : RecordKind) (b : Byte) (d : List Byte) :
    (s.writeRecord k b d).mgmt = s.mgmt := congrArg Apart.mgmt (writeRecord_apart s k b d)
@[simp] theorem sendTrigger_restrict (s : State) (x : TriggerSource) (b : Byte) :
    (s.sendTrigger x b).restrict = s.restrict := congrArg Apart.restrict (sendTrigger_apart s x b)
@[simp] theorem sendTrigger_mgmt (s : State) (x : TriggerSource) (b : Byte) :
    (s.sendTrigger x b).mgmt = s.mgmt := congrArg Apart.mgmt (sendTrigger_apart s x b)

/-! ### The ring -/

/-- The ring and the next sequence. -/
@[reducible] def State.ringPart (s : State) : List Record × BitVec 32 := (s.hist.ring, s.hist.nextSeq)

@[simp] theorem drawNv_ring (s : State) : s.drawNv.ringPart = s.ringPart := rfl
@[simp] theorem pushOp_ring (s : State) (k : Fin 16) (a : HeaderOpKind) (c : Header) :
    (s.pushOp k a c).ringPart = s.ringPart := rfl
@[simp] theorem putHeader_ring (s : State) (k : Fin 16) (h : Header) : (s.putHeader k h).ringPart = s.ringPart := rfl
@[simp] theorem putIncident_ring (s : State) (i : Incident) : (s.putIncident i).ringPart = s.ringPart := rfl
@[simp] theorem commitFrom_ring (s : State) (i : Incident) (k : Nat) : (s.commitFrom i k).ringPart = s.ringPart := by
  unfold State.commitFrom; split <;> rfl
@[simp] theorem startCommit_ring (s : State) (i : Incident) : (s.startCommit i).ringPart = s.ringPart := by
  unfold State.startCommit; split
  · rfl
  · exact commitFrom_ring s i 0
@[simp] theorem beginCommit_ring (s : State) (i : Incident) : (s.beginCommit i).ringPart = s.ringPart := by
  unfold State.beginCommit; dsimp only; split
  · exact startCommit_ring _ i
  · rfl
@[simp] theorem appendPost_ring (s : State) (r : Record) : (s.appendPost r).ringPart = s.ringPart := by
  unfold State.appendPost
  split
  · split
    · dsimp only; split
      · exact beginCommit_ring s _
      · rfl
    · rfl
  · rfl
/-- A record joins the ring and takes the next sequence (R152). -/
theorem writeRecord_ring (s : State) (k : RecordKind) (b : Byte) (d : List Byte) :
    (s.writeRecord k b d).ringPart =
      (ringPush s.hist.ring ⟨s.now, s.hist.nextSeq, k, b, padTo 14 d⟩, s.hist.nextSeq + 1) := by
  unfold State.writeRecord; dsimp only
  rw [appendPost_ring]
  rfl
@[simp] theorem leaveSlot_ring (s : State) (k : Fin 16) : (s.leaveSlot k).ringPart = s.ringPart := by
  unfold State.leaveSlot; split
  · split <;> rfl
  · rfl
@[simp] theorem note_ring (s : State) (o : TriggerOutcome) : (s.note o).ringPart = s.ringPart := rfl
theorem opened_ring (s : State) (n : BitVec 32) (c : Capture) (i : Option Incident) :
    (s.withHist { s.hist with nextIncident := n, capture := c, current := i }).ringPart = s.ringPart := rfl
@[simp] theorem openOn_ring (s : State) (g : Trigger) (k : Fin 16) : (s.openOn g k).ringPart = s.ringPart := by
  unfold State.openOn; dsimp only; split
  · rw [beginCommit_ring, note_ring, leaveSlot_ring, pushOp_ring, putHeader_ring, opened_ring]
  · rw [note_ring, leaveSlot_ring, pushOp_ring, putHeader_ring, opened_ring]
@[simp] theorem openIncident_ring (s : State) (g : Trigger) : (s.openIncident g).ringPart = s.ringPart := by
  unfold State.openIncident; split
  · exact openOn_ring s g _
  · rfl
@[simp] theorem joinTrigger_ring (s : State) (g : Trigger) : (s.joinTrigger g).ringPart = s.ringPart := by
  unfold State.joinTrigger; split <;> rfl
@[simp] theorem dropTrigger_ring (s : State) : s.dropTrigger.ringPart = s.ringPart := by
  unfold State.dropTrigger; dsimp only; split <;> rfl
@[simp] theorem queueTrigger_ring (s : State) (g : Trigger) : (s.queueTrigger g).ringPart = s.ringPart := by
  unfold State.queueTrigger; split
  · rfl
  · exact dropTrigger_ring s
@[simp] theorem takeTrigger_ring (s : State) (g : Trigger) : (s.takeTrigger g).ringPart = s.ringPart := by
  unfold State.takeTrigger; split <;> simp
@[simp] theorem sendTrigger_ring (s : State) (x : TriggerSource) (b : Byte) :
    (s.sendTrigger x b).ringPart = s.ringPart := takeTrigger_ring s _

theorem foldl_ring {α : Type} (f : State → α → State) (h : ∀ s a, (f s a).ringPart = s.ringPart) (l : List α)
    (s : State) : (l.foldl f s).ringPart = s.ringPart := by
  induction l generalizing s with
  | nil => rfl
  | cons a l ih => rw [List.foldl_cons, ih, h]

@[simp] theorem serveFrom_ring (s : State) (l : List Trigger) : (s.serveFrom l).ringPart = s.ringPart := by
  induction l generalizing s with
  | nil => rfl
  | cons g gs ih =>
    unfold State.serveFrom; dsimp only
    split
    · rw [ih, openIncident_ring]; rfl
    · rw [foldl_ring _ joinTrigger_ring]
      show ((s.withHist { s.hist with queue := gs }).openIncident g).ringPart = _
      rw [openIncident_ring]; rfl
    · rw [openIncident_ring]; rfl
@[simp] theorem serveQueue_ring (s : State) : s.serveQueue.ringPart = s.ringPart := by
  unfold State.serveQueue; split
  · simp
  · rw [foldl_ring _ joinTrigger_ring]; rfl
  · rfl
@[simp] theorem placeNotice_ring (s : State) (k : NoticeKind) (b : Byte) (v : BitVec 32) :
    (s.placeNotice k b v).ringPart = s.ringPart := by unfold State.placeNotice; split <;> rfl

/-! ### Settling and handing on from their parts -/

/-- What the parts of settling give. -/
structure Hands (R : State → State → Prop) : Prop where
  refl : ∀ s, R s s
  trans : ∀ {s t u}, R s t → R t u → R s u
  handOver : ∀ s ks, R s (s.handOver ks)
  arbitrate : ∀ s p t, s.arbitrate p = some t → R s t
  offer : ∀ s t, s.offerNotice = some t → R s t
  endOffer : ∀ s, R s s.endOffer

section
variable {R : State → State → Prop} (w : Hands R)
include w

theorem Hands.settleOne (s t : State) (h : s.settleOne = some t) : R s t := by
  unfold State.settleOne at h
  split at h
  · cases h; exact w.handOver s _
  · split at h
    · next e => cases h; exact w.arbitrate s _ _ e
    · split at h
      · next e => cases h; exact w.arbitrate s _ _ e
      · split at h
        · cases h
          cases e : s.offerNotice with
          | none => exact w.endOffer s
          | some u => exact w.offer s u e
        · split at h
          · cases h; exact w.handOver s _
          · cases h

theorem Hands.settleWithin (n : Nat) (s : State) : R s (State.settleWithin n s) := by
  induction n generalizing s with
  | zero => exact w.refl s
  | succ n ih =>
    unfold State.settleWithin
    split
    · exact w.refl s
    · next e => exact w.trans (w.settleOne s _ e) (ih _)

theorem Hands.settle (s : State) : R s s.settle := w.settleWithin _ s

theorem Hands.handOn (s : State) (ks : List Nat) : R s (s.handOn ks) := w.trans (w.handOver s ks) (w.settle _)
end

/-- What the parts of a hand-over give. -/
structure Edges (R : State → State → Prop) : Prop where
  refl : ∀ s, R s s
  trans : ∀ {s t u}, R s t → R t u → R s u
  restrict : ∀ s x, R s (s.withRestrict x)
  work : ∀ s x, R s (s.withWork x)
  record : ∀ s k b d, d.length ≤ 14 → R s (s.writeRecord k b d)
  trigger : ∀ s x b, R s (s.sendTrigger x b)
  notice : ∀ s k b v, R s (s.placeNotice k b v)

section
variable {R : State → State → Prop} (w : Edges R)
include w

theorem Edges.takeEdge (s : State) (i : Fin 20) (e : Entry) : R s (s.takeEdge i e) := by
  have h : ∀ x : State, R s x → ∀ k b d l y, R s (((x.writeRecord k b [d, l, y, b8 e.priority]).putEntry i
      { e with latched := e.latched || e.matchesEdge e.pending })) := fun x hx k b d l y =>
    w.trans (w.trans hx (w.record x k b [d, l, y, b8 e.priority] (by simp))) (w.restrict _ _)
  unfold State.takeEdge; dsimp only
  split
  · refine w.trans ?_ (w.notice _ _ _ _)
    split
    · exact h _ (w.trigger s _ _) _ _ _ _ _
    · exact h _ (w.refl s) _ _ _ _ _
  · split
    · exact h _ (w.trigger s _ _) _ _ _ _ _
    · exact h _ (w.refl s) _ _ _ _ _

theorem Edges.updateEntry (s : State) (i : Fin 20) (e : Entry) : R s (s.updateEntry i e) := by
  unfold State.updateEntry; dsimp only
  split
  · exact w.trans (w.restrict s _) (w.takeEdge _ i _)
  · exact w.restrict s _

omit w in
theorem applied_length (r : Restrict) (path : Path) (k : Nat) : (r.applied path k).length = 2 := by
  unfold Restrict.applied; split <;> rfl

theorem Edges.recomputePath (s : State) (path : Path) : R s (s.recomputePath path) := by
  unfold State.recomputePath; dsimp only
  split
  · exact w.refl s
  · refine w.trans ?_ (w.work _ _)
    refine w.trans ?_ (w.notice _ _ _ _)
    exact w.trans (w.restrict s _) (w.record _ _ _ _ (by simp [applied_length]))

theorem Edges.recomputeGov (s : State) : R s s.recomputeGov :=
  w.trans (w.recomputePath s _) (w.recomputePath _ _)

theorem Edges.setCondition (s : State) (k : Nat) : R s (s.setCondition k) := by
  unfold State.setCondition; split
  · exact w.refl s
  · split
    · exact w.restrict s _
    · exact w.refl s

theorem Edges.takeChange (s : State) (k : Nat) : R s (s.takeChange k) := by
  unfold State.takeChange; split
  · exact w.refl s
  · split
    · exact w.updateEntry s _ _
    · exact w.refl s

/-- A fold of operations the relation holds of. -/
theorem Edges.fold {f : State → Nat → State} (h : ∀ x k, R x (f x k)) (ks : List Nat) (s : State) :
    R s (ks.foldl f s) := by
  induction ks generalizing s with
  | nil => exact w.refl s
  | cons k ks ih => exact w.trans (h s k) (ih _)

theorem Edges.handOver (s : State) (ks : List Nat) : R s (s.handOver ks) :=
  w.trans (w.trans (w.fold w.setCondition ks s) (w.fold w.takeChange ks _)) (w.recomputeGov _)
end

end Sys2Proof.Machine
end

