-- ==== Sys2Proof/Laws/Steps.lean ====
section
/-!
SUPPORT. The walk of Walk.lean taken across every command but POWER_ON_RESET: a relation that the primitive
operations, the owners' writes and the completions of NV operations give holds between the states before and after
each command.
-/

namespace Sys2Proof.Machine

/-- The taking of an erase writes the store, then leaves the slot. -/
theorem beginErase_store (s : State) (k : Fin 16) : ∃ x, s.beginErase k = (s.withStore x).leaveSlot k := by
  have e : ∀ (u : State) (h : Header), (u.pushOp k .eraseBegin h) = u.withStore (u.pushOp k .eraseBegin h).store :=
    fun _ _ => rfl
  have f : ∀ u : State, u.startErase k = u.withStore (u.startErase k).store := fun _ => rfl
  have g : ∀ (u : State) (h : Header), u.putHeader k h = u.withStore (u.putHeader k h).store := fun _ _ => rfl
  unfold State.beginErase; dsimp only; split
  · rw [f, e, g]; exact ⟨_, rfl⟩
  · rw [e, g]; exact ⟨_, rfl⟩

@[simp] theorem done_fst (s : State) (d : List Byte) : (done s d).1 = s := rfl
@[simp] theorem refuse_fst (s : State) (x : Status) : (refuse s x).1 = s := rfl
@[simp] theorem doneMode_fst (s t : State) : (doneMode s t).1 = t := rfl
@[simp] theorem refuseMode_fst (s : State) (x : Status) : (refuseMode s x).1 = s := rfl
@[simp] theorem refuseAdopt_fst (s : State) (f : AdoptRefusal) : (refuseAdopt s f).1 = s := rfl

/-- A relation that the owners' writes and the completions give as well. -/
structure Steps (R : State → State → Prop) : Prop extends Walk R where
  reply : ∀ s p o, R s (s.offerReply p o)
  malformed : ∀ s, R s s.countMalformed
  sent : ∀ s p, R s (s.putPort p (s.port p).sent)
  setNotice : ∀ s p a e, R s (takeSetNotice p a e s).1
  restart : ∀ s, R s (takeRestart s).1
  setPort : ∀ s p t c, R s (takeSetPort p t c s).1
  setRestriction : ∀ s n x, R s (takeSetRestriction n x s).1
  ackRestrictions : ∀ s m, R s (takeAckRestrictions m s).1
  setLimiter : ∀ s p v, R s (takeSetLimiter p v s).1
  setRecorder : ∀ s p q a b, R s (takeSetRecorder p q a b s).1
  cursor : ∀ s c, R s (s.putCursor c)
  guard : ∀ s b k, R s (takeGuard b k s).1
  erase : ∀ s k, R s (takeEraseIncident k s).1
  claimed : ∀ s k op, R s ((s.popOp k op).claimed k)
  commitErased : ∀ s (i : Incident), s.hist.current = some i → R s ((s.putSlot i.slot { s.slot i.slot with cells := blankCells }).commitFrom i 0)
  cellWritten : ∀ s (i : Incident) k, s.hist.current = some i → R s ((s.storeRecord i k).commitFrom i (k + 1))
  committed : ∀ s (i : Incident) op, s.hist.current = some i →
    R s ((((((s.closeSlot i.slot op).placeNotice .incident (b8 i.slot.val) i.number).handOn [19]).goIdle).serveQueue))
  popped : ∀ s k op, R s (s.popOp k op)
  freed : ∀ s k, R s ((s.freeSlot k).handOn [19])
  scanned : ∀ s x, s.hist.scan = some x → R s ((s.scanned x).scanEnded)

/-- The commit operation in progress is the current incident's. -/
theorem commitOp_current {s : State} {i : Incident} {op : CommitOp} (h : s.commitOp = some (i, op)) :
    s.hist.current = some i ∧ i.op = some op := by
  unfold State.commitOp at h
  split at h
  · cases h
  · next j e =>
    cases f : j.op with
    | none => rw [f] at h; cases h
    | some o => rw [f] at h; cases h; exact ⟨e, f⟩

section
variable {R : State → State → Prop} (w : Steps R)
include w

/-! ### Requests -/

theorem Steps.takeSetMode (s : State) (b : Byte) : R s (takeSetMode b s).1 := by
  unfold Machine.takeSetMode takeSetActive takeSetIsolated
  split
  · split
    · exact w.refl s
    · exact w.refl s
    · rw [doneMode_fst]; exact w.enterActive s _
  · split
    · split
      · exact w.refl s
      · exact w.refl s
      · split
        · rw [doneMode_fst]; exact w.leave s
        · exact w.refl s
    · exact w.refl s

theorem Steps.onSlot (s : State) (b : Byte) (take : Fin 16 → Taken) (h : ∀ k, R s (take k).1) :
    R s (s.onSlot b take).1 := by
  unfold State.onSlot; split
  · exact w.refl s
  · split
    · exact h _
    · exact w.refl s

theorem Steps.writeStation (s : State) (e : Station) : R s (s.writeStation e) :=
  w.toWalk.trans (w.cls s _) (w.edited _ _ _)

theorem Steps.takeSetStation (s : State) (x : StationParams) : R s (takeSetStation x s).1 := by
  unfold Machine.takeSetStation; split
  · exact w.refl s
  · split
    · exact w.refl s
    · split
      · exact w.refl s
      · split
        · exact w.refl s
        · rw [done_fst]; exact w.writeStation s _

theorem Steps.takeClearStation (s : State) (a : Byte) : R s (takeClearStation a s).1 := by
  unfold Machine.takeClearStation; split
  · exact w.refl s
  · split
    · exact w.refl s
    · rw [done_fst]; exact w.trans (w.cls s _) (w.edited _ _ _)

theorem Steps.takeSetMatch (s : State) (a b c d e f g : Byte) : R s (takeSetMatch a b c d e f g s).1 := by
  unfold Machine.takeSetMatch; split
  · split
    · exact w.refl s
    · exact w.cls s _
  · exact w.refl s

theorem Steps.takeRestoreAxle (s : State) (h : ReqHead) : R s (takeRestoreAxle h s).1 := by
  unfold Machine.takeRestoreAxle; split
  · exact w.refl s
  · split
    · exact w.refl s
    · split
      · exact w.refl s
      · rw [done_fst]; exact w.trans (w.returnAxle s _) (w.handAxles _ _ _)

theorem Steps.takeLoadSegment (s : State) (a : Byte) (l : List Byte) : R s (takeLoadSegment a l s).1 := by
  unfold Machine.takeLoadSegment; split
  · exact w.refl s
  · dsimp only; split
    · unfold State.takeSegment; dsimp only
      split
      · exact w.trans (w.withdraw s) (w.banks _ _)
      · split
        · exact w.trans (w.withdraw s) (w.banks _ _)
        · exact w.withdraw s
    · exact w.refl s

theorem Steps.takeAdopt (s : State) : R s (takeAdopt s).1 := by
  unfold Machine.takeAdopt; split
  · exact w.refl s
  · exact w.refl s
  · split
    · exact w.refl s
    · split
      · exact w.refl s
      · unfold State.acceptAdopt; split
        · rw [done_fst]; exact w.adopt s
        · rw [done_fst]; exact w.trans (w.banks s _) (w.handOn _ _)

theorem Steps.takeDiscardStaged (s : State) : R s (takeDiscardStaged s).1 :=
  w.trans (w.banks s s.banks.discarded) (w.withdraw _)

theorem Steps.takeSetCursor (s : State) (a : Byte) (i : BitVec 16) : R s (takeSetCursor a i s).1 := by
  refine w.onSlot s a _ (fun k => ?_)
  dsimp only; split
  · exact w.cursor s _
  · exact w.refl s

theorem Steps.takeReadRecords (s : State) : R s (takeReadRecords s).1 := by
  unfold Machine.takeReadRecords; split
  · exact w.refl s
  · split
    · exact w.refl s
    · split
      · exact w.refl s
      · dsimp only; split
        · exact w.cursor s _
        · exact w.cursor s _

theorem Steps.takeTrigger (s : State) (h : ReqHead) (b : Byte) (l : List Byte) : R s (takeTriggerRequest h b l s).1 := by
  unfold Machine.takeTriggerRequest; split
  · exact w.trans (w.trigger s _ _) (w.record _ _ _ _ (by simp [word16, be16, padTo]))
  · exact w.refl s

theorem Steps.takeReadStatus (s : State) (b : Byte) : R s (takeReadStatus b s).1 := by
  unfold Machine.takeReadStatus; split
  · exact w.refl s
  · split <;> exact w.refl s

theorem Steps.takeReadPort (s : State) (b : Byte) : R s (takeReadPort b s).1 := by
  unfold Machine.takeReadPort; split <;> exact w.refl s

theorem Steps.takeReadStation (s : State) (b : Byte) : R s (takeReadStation b s).1 := by
  unfold Machine.takeReadStation; split
  · exact w.refl s
  · split <;> exact w.refl s

theorem Steps.takeReadAxle (s : State) (h : ReqHead) : R s (takeReadAxle h s).1 := by
  unfold Machine.takeReadAxle; split <;> exact w.refl s

theorem Steps.takeReadBogie (s : State) (h : ReqHead) (b : Byte) : R s (takeReadBogie h b s).1 := by
  unfold Machine.takeReadBogie; split
  · split <;> exact w.refl s
  · exact w.refl s

theorem Steps.takeReadRestrictions (s : State) (b : Byte) : R s (takeReadRestrictions b s).1 := by
  unfold Machine.takeReadRestrictions; split <;> exact w.refl s

theorem Steps.takeReadIncidents (s : State) (b : Byte) : R s (takeReadIncidents b s).1 :=
  w.onSlot s b _ (fun _ => w.refl s)

theorem Steps.serve (s : State) (h : ReqHead) (code : Byte) (c : State → Bool) (take : State → Taken)
    (t : ∀ u, R u (take u).1) : R s (s.serve h code c take) := by
  have k : R s ((s.taking c).takeWith h take).1 := by
    refine w.trans (w.taking s c) ?_
    unfold State.takeWith; split
    · exact t _
    · exact w.refl _
  unfold State.serve State.reply
  refine w.trans ?_ (w.settle _)
  refine w.trans ?_ (w.work _ _)
  refine w.trans ?_ (w.work _ _)
  refine w.trans ?_ (w.settle _)
  refine w.trans ?_ (w.reply _ _ _)
  refine w.trans ?_ (w.settle _)
  refine w.trans ?_ (w.evaluateIfDue _)
  exact w.trans k (w.settle _)

theorem Steps.consumeRequest (s : State) (h : ReqHead) (code : Byte) (c : State → Bool) (take : State → Taken)
    (t : ∀ u, R u (take u).1) : R s (s.consumeRequest h code c take) := by
  unfold State.consumeRequest; split
  · unfold State.respond; split
    · exact w.malformed s
    · split
      · exact w.serve s h code c take t
      · exact w.refl s
  · exact w.refl s

theorem Steps.request (s : State) (h : ReqHead) (code : Byte) (ps : List Byte) (c : State → Bool)
    (take : State → Taken) (t : ∀ u, R u (take u).1) : R s (s.request h code ps c take) :=
  w.arrive s _ _ _ (fun u => w.consumeRequest u h code c take t)

/-! ### A request read from its code -/

theorem Steps.invalid (s : State) : R s (takeInvalid s).1 := w.refl s

theorem Steps.noParams (s : State) (take : State → Taken) (t : ∀ u, R u (take u).1) (ps : List Byte) :
    R s (noParams take ps s).1 := by
  unfold Machine.noParams; split
  · exact t s
  · exact w.refl s

theorem Steps.oneParam (s : State) (take : Byte → State → Taken) (t : ∀ a u, R u (take a u).1) (ps : List Byte) :
    R s (oneParam take ps s).1 := by
  unfold Machine.oneParam; split
  · exact t _ s
  · exact w.refl s

theorem Steps.twoParams (s : State) (take : Byte → Byte → State → Taken) (t : ∀ a b u, R u (take a b u).1)
    (ps : List Byte) : R s (twoParams take ps s).1 := by
  unfold Machine.twoParams; split
  · exact t _ _ s
  · exact w.refl s

theorem Steps.takeOf (s : State) (h : ReqHead) (code : Byte) (ps : List Byte) : R s (takeOf h code ps s).1 := by
  unfold Machine.takeOf
  generalize code.toNat = n
  split
  · exact w.noParams s _ w.refl ps
  · exact w.oneParam s _ (fun a u => w.takeReadStatus u a) ps
  · exact w.oneParam s _ (fun a u => w.takeSetMode u a) ps
  · exact w.twoParams s _ (fun a b u => w.setNotice u _ a b) ps
  · exact w.noParams s _ w.restart ps
  · unfold portParams; split
    · exact w.setPort s _ _ _
    · exact w.refl s
  · exact w.oneParam s _ (fun a u => w.takeReadPort u a) ps
  · unfold stationParams; split
    · exact w.takeSetStation s _
    · exact w.refl s
  · exact w.oneParam s _ (fun a u => w.takeClearStation u a) ps
  · exact w.oneParam s _ (fun a u => w.takeReadStation u a) ps
  · unfold matchParams; split
    · exact w.takeSetMatch s _ _ _ _ _ _ _
    · exact w.refl s
  · exact w.noParams s _ (fun u => w.takeReadAxle u h) ps
  · exact w.noParams s _ (fun u => w.takeRestoreAxle u h) ps
  · exact w.oneParam s _ (fun a u => w.takeReadBogie u h a) ps
  · unfold restrictionParams; split
    · exact w.setRestriction s _ _
    · exact w.refl s
  · exact w.oneParam s _ (fun a u => w.takeReadRestrictions u a) ps
  · unfold ackParams; split
    · exact w.ackRestrictions s _
    · exact w.refl s
  · exact w.twoParams s _ (fun a b u => w.setLimiter u a b) ps
  · unfold loadParams; split
    · exact w.takeLoadSegment s _ _
    · exact w.refl s
  · exact w.noParams s _ w.takeAdopt ps
  · exact w.noParams s _ w.takeDiscardStaged ps
  · unfold recorderParams; split
    · exact w.setRecorder s _ _ _ _
    · exact w.refl s
  · exact w.oneParam s _ (fun a u => w.takeReadIncidents u a) ps
  · unfold cursorParams; split
    · exact w.takeSetCursor s _ _
    · exact w.refl s
  · exact w.noParams s _ w.takeReadRecords ps
  · exact w.oneParam s _ (fun a u => w.guard u true a) ps
  · exact w.oneParam s _ (fun a u => w.guard u false a) ps
  · exact w.oneParam s _ (fun a u => w.erase u a) ps
  · unfold triggerParams; split
    · exact w.takeTrigger s h _ _
    · exact w.refl s
  · exact w.refl s

theorem Steps.consumeFrame (s : State) (p : PortId) (f : Frame) : R s (s.consumeFrame p f) := by
  unfold State.consumeFrame
  split
  · unfold State.consumeDemandFrame; split
    · exact w.consumeDemand s _ _ _ _ _ _
    · exact w.policeMisformed s _ _ _ _
  · split
    · unfold State.consumeSpeedFrame; split
      · exact w.consumeSpeeds s _ _ _ _
      · exact w.policeMisformed s _ _ _ _
    · split
      · unfold State.consumeGroundFrame; split
        · exact w.consumeGround s _ _ _ _ _
        · exact w.policeMisformed s _ _ _ _
      · split
        · unfold State.consumeEffortFrame; split
          · exact w.consumeEffort s _ _ _ _ _ _
          · exact w.policeMisformed s _ _ _ _
        · split
          · unfold State.consumePressureFrame; split
            · exact w.consumePressure s _ _ _ _ _ _
            · exact w.policeMisformed s _ _ _ _
          · split
            · unfold State.consumeRequestFrame; split
              · split
                · exact w.consumeRequest s _ _ _ _ (fun u => w.takeOf u _ _ _)
                · exact w.malformed s
              · exact w.refl s
            · exact w.consumePeer s _ _ _

/-! ### Every command -/

theorem Steps.refreshOutput (s : State) (k : Fin 4) (m : s.demand.mode = .active) : R s (s.refreshOutput k) := by
  unfold State.refreshOutput; split
  · unfold State.refreshEffort; split
    · exact w.trans (w.putOut s _ _) (w.command _ _ _ m)
    · exact w.putOut s _ _
  · unfold State.refreshPressure; split
    · exact w.trans (w.blend s _) (w.command _ _ _ m)
    · exact w.blend s _

/-- Every command but the reset answers a next state, and the relation holds across it. -/
theorem Steps.exec (c : Instr) (s : State) (nr : ∀ p a, c ≠ .powerOnReset p a) :
    ∃ t, exec c s = .next t ∧ R s t := by
  cases c
  case powerOnReset p a => exact absurd rfl (nr p a)
  case frameArrival p bytes =>
    simp only [Machine.exec, execFrameArrival]
    split
    · exact ⟨_, rfl, w.putPort s p _ ⟨rfl, rfl, rfl, rfl, rfl⟩⟩
    · exact ⟨_, rfl, w.putPort s p _ ⟨rfl, rfl, rfl, rfl, rfl⟩⟩
    · exact ⟨_, rfl, w.arrive s p _ _ (fun t => w.consumeFrame t p _)⟩
  case demand => exact ⟨_, rfl, w.arrive s _ _ _ (fun t => w.consumeDemand t _ _ _ _ _ _)⟩
  case axleSpeed => exact ⟨_, rfl, w.arrive s _ _ _ (fun t => w.consumeSpeeds t _ _ _ _)⟩
  case groundSpeed => exact ⟨_, rfl, w.arrive s _ _ _ (fun t => w.consumeGround t _ _ _ _ _)⟩
  case effortReport => exact ⟨_, rfl, w.arrive s _ _ _ (fun t => w.consumeEffort t _ _ _ _ _ _)⟩
  case pressureReport => exact ⟨_, rfl, w.arrive s _ _ _ (fun t => w.consumePressure t _ _ _ _ _ _)⟩
  case transmissionComplete p =>
    simp only [Machine.exec, execTransmissionComplete]
    split
    · exact ⟨_, rfl, w.trans (w.sent s p) (w.finish _)⟩
    · exact ⟨_, rfl, w.refl s⟩
  case silenceTimerExpiry p =>
    simp only [Machine.exec, execSilenceTimerExpiry]
    split
    · exact ⟨_, rfl, w.trans (w.trans (w.putPort s p { s.port p with silenceTimer := none, silent := true }
        ⟨rfl, rfl, rfl, rfl, rfl⟩) (w.handOn _ _)) (w.finish _)⟩
    · exact ⟨_, rfl, w.refl s⟩
  case stationFreshnessExpiry a => exact ⟨_, rfl, w.trans (w.expireFresh s a) (w.finish _)⟩
  case stationConcealExpiry a => exact ⟨_, rfl, w.trans (w.expireConceal s a) (w.finish _)⟩
  case axleFreshnessExpiry g => exact ⟨_, rfl, w.trans (w.expireSample s g) (w.finish _)⟩
  case axleConcealExpiry g => exact ⟨_, rfl, w.trans (w.expireSampleConceal s g) (w.finish _)⟩
  case releaseConfirmExpiry =>
    simp only [Machine.exec, execReleaseConfirmExpiry]
    split
    · exact ⟨_, rfl, w.trans (w.enterReleased s _) (w.finish _)⟩
    · exact ⟨_, rfl, w.refl s⟩
  case referenceLostExpiry =>
    simp only [Machine.exec, execReferenceLostExpiry]
    split
    · exact ⟨_, rfl, w.trans (w.trans (w.slide s _) (w.handOn _ _)) (w.finish _)⟩
    · exact ⟨_, rfl, w.refl s⟩
  case allowanceTimerExpiry i =>
    simp only [Machine.exec, execAllowanceTimerExpiry]
    split
    · exact ⟨_, rfl, w.trans (w.singleAxle s i _) (w.finish _)⟩
    · exact ⟨_, rfl, w.refl s⟩
  case dumpTimerExpiry =>
    simp only [Machine.exec, execDumpTimerExpiry]
    split
    · exact ⟨_, rfl, w.trans (w.moveAir s _) (w.finish _)⟩
    · exact ⟨_, rfl, w.refl s⟩
  case holdTimerExpiry =>
    simp only [Machine.exec, execHoldTimerExpiry]
    split
    · exact ⟨_, rfl, w.trans (w.moveAir s _) (w.finish _)⟩
    · exact ⟨_, rfl, w.refl s⟩
  case stepTimerExpiry =>
    simp only [Machine.exec, execStepTimerExpiry]
    split
    · exact ⟨_, rfl, w.trans (w.trans (w.moveAir s _) (w.callEvalIf _ _)) (w.finish _)⟩
    · exact ⟨_, rfl, w.refl s⟩
  case mismatchTimerExpiry =>
    simp only [Machine.exec, execMismatchTimerExpiry]
    split
    · exact ⟨_, rfl, w.trans (w.trans (w.putAir s _) (w.handOn _ _)) (w.finish _)⟩
    · exact ⟨_, rfl, w.refl s⟩
  case handoverTimerExpiry =>
    simp only [Machine.exec, execHandoverTimerExpiry]
    split
    · exact ⟨_, rfl, w.trans (w.evaluate s true) (w.finish _)⟩
    · exact ⟨_, rfl, w.refl s⟩
  case refreshTimerExpiry k =>
    simp only [Machine.exec, execRefreshTimerExpiry]
    split
    · next x => exact ⟨_, rfl, w.trans (w.refreshOutput s k (of_decide_eq_true x.2)) (w.finish _)⟩
    · exact ⟨_, rfl, w.refl s⟩
  case claimHeaderWriteComplete k =>
    simp only [Machine.exec, execClaimHeaderWriteComplete]
    split
    · exact ⟨_, rfl, w.trans (w.claimed s k _) (w.finish _)⟩
    · exact ⟨_, rfl, w.refl s⟩
  case commitEraseComplete =>
    simp only [Machine.exec, execCommitEraseComplete]
    split
    · next h => exact ⟨_, rfl, w.trans (w.commitErased s _ (commitOp_current h).1) (w.finish _)⟩
    all_goals exact ⟨_, rfl, w.refl s⟩
  case recordCellWriteComplete =>
    simp only [Machine.exec, execRecordCellWriteComplete]
    split
    · next h => exact ⟨_, rfl, w.trans (w.cellWritten s _ _ (commitOp_current h).1) (w.finish _)⟩
    all_goals exact ⟨_, rfl, w.refl s⟩
  case commitHeaderWriteComplete =>
    simp only [Machine.exec, execCommitHeaderWriteComplete]
    split
    · exact ⟨_, rfl, w.refl s⟩
    · next h =>
      split
      · exact ⟨_, rfl, w.trans (w.committed s _ _ h) (w.finish _)⟩
      · exact ⟨_, rfl, w.refl s⟩
  case protectHeaderWriteComplete k =>
    simp only [Machine.exec, execProtectHeaderWriteComplete]
    split
    · exact ⟨_, rfl, w.trans (w.popped s k _) (w.finish _)⟩
    · exact ⟨_, rfl, w.refl s⟩
  case eraseComplete k =>
    simp only [Machine.exec, execEraseComplete]
    split
    · exact ⟨_, rfl, w.trans (w.freed s k) (w.finish _)⟩
    · exact ⟨_, rfl, w.refl s⟩
  case eraseHeaderWriteComplete k =>
    simp only [Machine.exec, execEraseHeaderWriteComplete]
    split
    · exact ⟨_, rfl, w.trans (w.popped s k _) (w.finish _)⟩
    · exact ⟨_, rfl, w.refl s⟩
  case scanOperationComplete =>
    simp only [Machine.exec, execScanOperationComplete]
    split
    · next h => exact ⟨_, rfl, w.trans (w.scanned s _ h) (w.finish _)⟩
    · exact ⟨_, rfl, w.refl s⟩
  case identify h => exact ⟨_, rfl, w.request s h _ _ _ _ w.refl⟩
  case readStatus h b => exact ⟨_, rfl, w.request s h _ _ _ _ (fun u => w.takeReadStatus u b)⟩
  case setMode h b => exact ⟨_, rfl, w.request s h _ _ _ _ (fun u => w.takeSetMode u b)⟩
  case setNotice h a e => exact ⟨_, rfl, w.request s h _ _ _ _ (fun u => w.setNotice u _ a e)⟩
  case restart h => exact ⟨_, rfl, w.request s h _ _ _ _ w.restart⟩
  case setPort h a b c => exact ⟨_, rfl, w.request s h _ _ _ _ (fun u => w.setPort u a b c)⟩
  case readPort h a => exact ⟨_, rfl, w.request s h _ _ _ _ (fun u => w.takeReadPort u a)⟩
  case setStation h _ _ _ _ _ _ _ _ _ _ => exact ⟨_, rfl, w.request s h _ _ _ _ (fun u => w.takeSetStation u _)⟩
  case clearStation h a => exact ⟨_, rfl, w.request s h _ _ _ _ (fun u => w.takeClearStation u a)⟩
  case readStation h a => exact ⟨_, rfl, w.request s h _ _ _ _ (fun u => w.takeReadStation u a)⟩
  case setMatch h _ _ _ _ _ _ _ => exact ⟨_, rfl, w.request s h _ _ _ _ (fun u => w.takeSetMatch u _ _ _ _ _ _ _)⟩
  case readAxle h => exact ⟨_, rfl, w.request s h _ _ _ _ (fun u => w.takeReadAxle u h)⟩
  case restoreAxle h => exact ⟨_, rfl, w.request s h _ _ _ _ (fun u => w.takeRestoreAxle u h)⟩
  case readBogie h b => exact ⟨_, rfl, w.request s h _ _ _ _ (fun u => w.takeReadBogie u h b)⟩
  case setRestriction h _ _ _ _ _ _ _ _ _ _ => exact ⟨_, rfl, w.request s h _ _ _ _ (fun u => w.setRestriction u _ _)⟩
  case readRestrictions h b => exact ⟨_, rfl, w.request s h _ _ _ _ (fun u => w.takeReadRestrictions u b)⟩
  case ackRestrictions h m => exact ⟨_, rfl, w.request s h _ _ _ _ (fun u => w.ackRestrictions u m)⟩
  case setLimiter h a b => exact ⟨_, rfl, w.request s h _ _ _ _ (fun u => w.setLimiter u a b)⟩
  case loadSegment h a l => exact ⟨_, rfl, w.request s h _ _ _ _ (fun u => w.takeLoadSegment u a l)⟩
  case adopt h => exact ⟨_, rfl, w.request s h _ _ _ _ w.takeAdopt⟩
  case discardStaged h => exact ⟨_, rfl, w.request s h _ _ _ _ w.takeDiscardStaged⟩
  case setRecorder h _ _ _ _ => exact ⟨_, rfl, w.request s h _ _ _ _ (fun u => w.setRecorder u _ _ _ _)⟩
  case readIncidents h b => exact ⟨_, rfl, w.request s h _ _ _ _ (fun u => w.takeReadIncidents u b)⟩
  case setCursor h a i => exact ⟨_, rfl, w.request s h _ _ _ _ (fun u => w.takeSetCursor u a i)⟩
  case readRecords h => exact ⟨_, rfl, w.request s h _ _ _ _ w.takeReadRecords⟩
  case protect h b => exact ⟨_, rfl, w.request s h _ _ _ _ (fun u => w.guard u true b)⟩
  case unprotect h b => exact ⟨_, rfl, w.request s h _ _ _ _ (fun u => w.guard u false b)⟩
  case eraseIncident h b => exact ⟨_, rfl, w.request s h _ _ _ _ (fun u => w.erase u b)⟩
  case trigger h b l => exact ⟨_, rfl, w.request s h _ _ _ _ (fun u => w.takeTrigger u h b l)⟩
  case unknownRequestCode h b l => exact ⟨_, rfl, w.request s h _ _ _ _ w.refl⟩

end

end Sys2Proof.Machine
end

