-- ==== Sys2Proof/Laws/Holds.lean ====
section
/-!
SUPPORT. The walk for laws about the recorder, the restriction table and the responder: a relation that depends on
these three blocks alone holds across every command once it holds across the operations that write them.
-/

namespace Sys2Proof.Machine

/-- What a law about the three blocks needs of the operations that write them. -/
structure Holds (R : State → State → Prop) : Prop where
  refl : ∀ s, R s s
  trans : ∀ {s t u}, R s t → R t u → R s u
  same : ∀ {s t : State}, t.hist = s.hist → t.restrict = s.restrict → t.mgmt = s.mgmt → R s t
  record : ∀ s k b d, d.length ≤ 14 → R s (s.writeRecord k b d)
  trigger : ∀ s x b, R s (s.sendTrigger x b)
  notice : ∀ s k b v, R s (s.placeNotice k b v)
  handOver : ∀ s ks, R s (s.handOver ks)
  offer : ∀ s t, s.offerNotice = some t → R s t

/-! ### What leaves the three blocks alone -/

/-- The three blocks. -/
structure Three where
  hist : Recorder
  restrict : Restrict
  mgmt : Mgmt

@[reducible] def State.three (s : State) : Three := ⟨s.hist, s.restrict, s.mgmt⟩

@[simp] theorem transmit_three (s : State) (p : PortId) (q : Queued) : (s.transmit p q).three = s.three := by
  cases q <;> rfl

theorem startCommand_three (s : State) (p : PortId) (c : Command) (cs : List Command) (k : Nat) :
    (s.startCommand p c cs k).three = s.three := transmit_three _ p _

theorem startForward_three (s : State) (p : PortId) (q : Queued) (qs : List Queued) :
    (s.startForward p q qs).three = s.three := by
  unfold State.startForward; dsimp only
  split
  · exact transmit_three (s.putPort p _) p q
  · exact transmit_three (s.putPort p _) p q

theorem arbitrate_three {s t : State} {p : PortId} (h : s.arbitrate p = some t) : t.three = s.three := by
  unfold State.arbitrate at h
  split at h
  · cases h
  · cases h
  · cases h; exact startCommand_three s p _ _ _
  · cases h; exact startForward_three s p _ _
  · split at h
    · cases h; exact startCommand_three s p _ _ _
    · cases h; exact startForward_three s p _ _

theorem offerCommand_three (s : State) (p : PortId) (c : Command) : (s.offerCommand p c).three = s.three := by
  unfold State.offerCommand; dsimp only
  cases h : (s.putPort p { s.port p with command := placeCommand c (s.port p).command }).arbitrate p with
  | none => rfl
  | some t => exact (arbitrate_three h).trans rfl

theorem offerForwarded_three (s : State) (p : PortId) (f : Frame) : (s.offerForwarded p f).three = s.three := by
  unfold State.offerForwarded; split <;> rfl

theorem offerReply_three (s : State) (p : PortId) (f : Orig) : (s.offerReply p f).three = s.three := by
  unfold State.offerReply; split <;> rfl

section
variable {R : State → State → Prop} (w : Holds R)
include w

theorem Holds.three {s t : State} (h : t.three = s.three) : R s t :=
  w.same (congrArg Three.hist h) (congrArg Three.restrict h) (congrArg Three.mgmt h)

theorem Holds.hands : Hands R where
  refl := w.refl
  trans := w.trans
  handOver := w.handOver
  arbitrate _ _ _ h := w.three (arbitrate_three h)
  offer := w.offer
  endOffer _ := w.same rfl rfl rfl

/-! ### The change out of ACTIVE -/

theorem Holds.withAxle (s : State) (i : Fin 3) (r : SlideRecord) : R s (s.putAxle i r) := w.same rfl rfl rfl

theorem Holds.clearAxle (s : State) (i : Fin 3) : R s (s.clearAxle i) := by
  unfold State.clearAxle State.changeAxle State.recordAxle; dsimp only
  split
  · exact w.withAxle s i _
  · refine w.trans ?_ (w.record _ _ _ _ (by simp [be16]))
    split
    · exact w.trans (w.withAxle s i _) (w.trigger _ _ _)
    · exact w.withAxle s i _

theorem Holds.clearAxles (l : List (Fin 3)) (s : State) : R s (l.foldl State.clearAxle s) := by
  induction l generalizing s with
  | nil => exact w.refl s
  | cons a l ih => exact w.trans (w.clearAxle s a) (ih _)

theorem Holds.withdrawnAll (s : State) (l : Link) :
    R s ((s.withLink l).withBlend (s.withLink l).blend.withdrawn) := w.same rfl rfl rfl

theorem Holds.idled (s : State) (m : Mode) :
    R s ((s.putAir s.air.idled).withDemand { s.demand with mode := m }) := w.same rfl rfl rfl

theorem Holds.leaveActive (s : State) : R s s.leaveActive := by
  unfold State.leaveActive; dsimp only
  refine w.trans ?_ (w.notice _ _ _ _)
  refine w.trans ?_ (w.record _ _ _ _ (by simp [be32]))
  refine w.trans ?_ (w.hands.handOn _ _)
  exact w.trans (w.trans (w.withdrawnAll s _) (w.clearAxles ownAxles _)) (w.idled _ .isolated)

/-- The walk of a law about the three blocks. -/
theorem Holds.walk : Walk R where
  refl := w.refl
  trans := w.trans
  cls _ _ := w.same rfl rfl rfl
  demand _ _ _ := w.same rfl rfl rfl
  slide _ _ := w.same rfl rfl rfl
  air _ _ := w.same rfl rfl rfl
  blend _ _ := w.same rfl rfl rfl
  banks _ _ := w.same rfl rfl rfl
  work _ _ := w.same rfl rfl rfl
  link _ _ _ _ _ := w.same rfl rfl rfl
  record := w.record
  trigger := w.trigger
  notice := w.notice
  settle := w.hands.settle
  handOn := w.hands.handOn
  command s p c _ := w.three (offerCommand_three s p c)
  leave := w.leaveActive
  forward s p f := w.three (offerForwarded_three s p f)
end

/-- What such a law needs besides of the requests and completions that write the three blocks. -/
structure Owners (R : State → State → Prop) : Prop extends Holds R where
  mgmt : ∀ s (x : Mgmt), x.noticeAddress = s.mgmt.noticeAddress → x.enables = s.mgmt.enables →
    x.notices = s.mgmt.notices ∨ x.notices = [] → R s (s.withMgmt x)
  noticed : ∀ s a p e, R s (s.withMgmt (s.mgmt.noticed a p e))
  acknowledged : ∀ s m, R s (s.withRestrict (s.restrict.acknowledged m))
  setRestriction : ∀ s n x, R s (takeSetRestriction n x s).1
  setLimiter : ∀ s p v, R s (takeSetLimiter p v s).1
  restarted : ∀ s, R s ((s.withRestrict { s.restrict with
    entries := s.restrict.entries.map Entry.restarted }).handOn allEntries)
  windows : ∀ s a b p e, a ≤ 256 → b ≤ 256 → a + b ≤ 384 →
    R s (s.withHist { s.hist with pre := a, post := b, policy := p, slidingTrigger := e })
  cursor : ∀ s c, R s (s.withHist { s.hist with cursor := c })
  op : ∀ s (i : Incident) k, s.hist.current = some i → R s (s.commitFrom i k)
  begin : ∀ s (i : Incident), s.hist.current = some i → s.hist.capture = .post →
    R s (s.beginCommit { i with postCut := true })
  claimed : ∀ s k, R s (s.claimed k)
  closed : ∀ s (i : Incident), s.hist.current = some i → R s (s.goIdle.serveQueue)
  scanned : ∀ s x, s.hist.scan = some x → R s (s.scanned x).scanEnded

section
variable {R : State → State → Prop} (w : Owners R)
include w

theorem Owners.leaveSlot (s : State) (k : Fin 16) : R s (s.leaveSlot k) := by
  unfold State.leaveSlot; split
  · split
    · exact w.cursor s none
    · exact w.refl s
  · exact w.refl s

theorem Owners.onSlot (s : State) (b : Byte) (take : Fin 16 → Taken) (h : ∀ k, R s (take k).1) :
    R s (s.onSlot b take).1 := by
  unfold State.onSlot; split
  · exact w.refl s
  · split
    · exact h _
    · exact w.refl s

theorem Owners.begun (s : State) (k : Fin 16) (h c : Header) (o : HeaderOpKind) :
    R s ((s.putHeader k h).pushOp k o c) := w.same rfl rfl rfl

theorem Owners.store (s : State) (x : Store) : R s (s.withStore x) := w.same rfl rfl rfl

theorem Owners.beginErase (s : State) (k : Fin 16) : R s (s.beginErase k) := by
  obtain ⟨x, e⟩ := beginErase_store s k; rw [e]
  exact w.trans (w.store s x) (w.leaveSlot _ k)

theorem Owners.restartRecorder (s : State) : R s s.restartRecorder := by
  unfold State.restartRecorder; dsimp only; split
  · next i hp hc => exact w.trans (w.cursor s none) (w.begin (s.withHist { s.hist with cursor := none }) i hc hp)
  · exact w.cursor s none

/-- RESTART's blocks, but for the restriction table. -/
theorem Owners.restartOthers (s : State) : ∃ t, R s t ∧
    s.restartBlocks = t.withRestrict { t.restrict with entries := t.restrict.entries.map Entry.restarted } := by
  refine ⟨(((((((s.withLink { s.link with
    a := s.link.a.restarted s.now s.silenceTimer, b := s.link.b.restarted s.now s.silenceTimer }).withCls
      (s.cls.restarted s.now)).withDemand { s.demand with
    lLast := 0, iLast := 0, hold := .startHold, emergency := false, releaseTimer := none }).withSlide
      { s.slide with axles := s.slide.axles.map SlideRecord.restarted }).withAir Air.reset).withBlend Blend.reset).withBanks
      { s.banks with openLoad := none, pendingAdoption := false }).withMgmt
      { s.mgmt with notices := [], malformed := 0 }, ?_, ?_⟩
  · have h : ∀ (a : Link) (b : Classifier) (c : Demand) (d : Slide) (e : Air) (f : Blend) (g : Banks),
        R s ((((((((s.withLink a).withCls b).withDemand c).withSlide d).withAir e).withBlend f).withBanks g)) :=
      fun _ _ _ _ _ _ _ => w.same rfl rfl rfl
    exact w.trans (h _ _ _ _ _ _ _) (w.mgmt _ _ (by simp) (by simp) (Or.inr rfl))
  · simp [State.restartBlocks]

theorem Owners.restartMode (s : State) : R s s.restartMode := by
  unfold State.restartMode; split
  · exact w.walk.enterActive s _
  · exact w.same rfl rfl rfl

theorem Owners.takeRestart (s : State) : R s (takeRestart s).1 := by
  unfold Machine.takeRestart; split
  · exact w.refl s
  · rw [done_fst]
    refine w.trans ?_ (w.restartMode _)
    refine w.trans ?_ (w.walk.openApplication _)
    refine w.trans (w.restartRecorder s) ?_
    obtain ⟨t, h, e⟩ := w.restartOthers s.restartRecorder
    rw [e]
    exact w.trans h (w.restarted t)

theorem Owners.popOp (s : State) (k : Fin 16) (op : HeaderOp) : R s (s.popOp k op) := by
  obtain ⟨x, e⟩ := popOp_store s k op; rw [e]; exact w.store s x
theorem Owners.closeSlot (s : State) (k : Fin 16) (op : HeaderOp) : R s (s.closeSlot k op) :=
  w.trans (w.popOp s k op) (w.same rfl rfl rfl)
theorem Owners.freeSlot (s : State) (k : Fin 16) : R s (s.freeSlot k) := w.same rfl rfl rfl

omit w in
theorem stored_le (p q : Nat) : storedPre p ≤ 256 ∧ storedPost p q ≤ 256 ∧ storedPre p + storedPost p q ≤ 384 := by
  have a : storedPre p ≤ 256 := by unfold storedPre clamp; omega
  have b : storedPost p q ≤ 256 ∧ storedPost p q ≤ 384 - storedPre p := by unfold storedPost clamp; omega
  omega

theorem Owners.takeSetRecorder (s : State) (p q : BitVec 16) (a b : Byte) : R s (takeSetRecorder p q a b s).1 := by
  unfold Machine.takeSetRecorder; split
  · exact w.refl s
  · split
    · exact w.refl s
    · exact w.windows s _ _ _ _ (stored_le _ q.toNat).1 (stored_le _ _).2.1 (stored_le _ _).2.2

theorem Owners.guardSlot (s : State) (k : Fin 16) (b : Bool) : R s (s.guardSlot k b) := by
  unfold State.guardSlot; dsimp only; split
  · exact w.refl s
  · exact w.begun s k _ _ _

theorem Owners.storeRecord (s : State) (i : Incident) (k : Nat) : R s (s.storeRecord i k) := by
  unfold State.storeRecord; split
  · exact w.same rfl rfl rfl
  · exact w.refl s

theorem Owners.guard (s : State) (b : Bool) (k : Byte) : R s (takeGuard b k s).1 :=
  w.onSlot s k _ (fun j => by
    dsimp only; split
    · rw [done_fst]; exact w.trans (w.guardSlot s j b) (w.walk.settle _)
    · exact w.refl s)

theorem Owners.erase (s : State) (k : Byte) : R s (takeEraseIncident k s).1 :=
  w.onSlot s k _ (fun j => by
    split
    · rw [done_fst]; exact w.beginErase s j
    · exact w.refl s)

omit w in
theorem placeNotice_hist (s : State) (k : NoticeKind) (b : Byte) (v : BitVec 32) :
    (s.placeNotice k b v).hist = s.hist := by unfold State.placeNotice; split <;> rfl

/-- The walk of a law about the three blocks over every command; the commit's end hands over while its incident is
still current. -/
theorem Owners.steps (keep : ∀ (s : State) (i : Incident) (op : HeaderOp), s.hist.current = some i → ∃ j,
    ((((s.closeSlot i.slot op).placeNotice .incident (b8 i.slot.val) i.number).handOn [19]).hist.current = some j)) :
    Steps R where
  toWalk := w.walk
  reply s p o := w.three (offerReply_three s p o)
  malformed s := w.mgmt s _ rfl rfl (Or.inl rfl)
  sent _ _ := w.same rfl rfl rfl
  setNotice s p a e := by
    unfold takeSetNotice; split
    · exact w.refl s
    · exact w.trans (w.noticed s a p _) (w.same rfl rfl rfl)
  restart := w.takeRestart
  setPort s p t c := by
    unfold takeSetPort; split
    · exact w.refl s
    · dsimp only; rw [done_fst]; split <;> exact w.same rfl rfl rfl
  setRestriction := w.setRestriction
  ackRestrictions s m := by
    unfold takeAckRestrictions; split
    · exact w.acknowledged s m
    · exact w.refl s
  setLimiter := w.setLimiter
  setRecorder := w.takeSetRecorder
  cursor := w.cursor
  guard := w.guard
  erase := w.erase
  claimed s k op := w.trans (w.popOp s k op) (w.claimed _ k)
  commitErased s i h := w.trans (t := s.putSlot i.slot { s.slot i.slot with cells := blankCells })
    (w.same rfl rfl rfl) (w.op _ i 0 h)
  cellWritten s i k h := w.trans (w.storeRecord s i k) (w.op _ i (k + 1) (by
    unfold State.storeRecord; split <;> exact h))
  committed s i op h := by
    obtain ⟨j, hj⟩ := keep s i op h
    exact w.trans (w.trans (w.trans (w.closeSlot s i.slot op) (w.walk.notice _ _ _ _)) (w.walk.handOn _ _))
      (w.closed _ j hj)
  popped s k op := w.popOp s k op
  freed s k := w.trans (w.freeSlot s k) (w.walk.handOn _ _)
  scanned := w.scanned
end

end Sys2Proof.Machine
end

