-- ==== Sys2Proof/Laws/Wire.lean ====
section
/-!
SUPPORT. Bytes on the wire read back: fields of two and four bytes, the samples of an AXLE_SPEED frame, and a
sealed frame at the port checks.
-/

namespace Sys2Proof.Machine

theorem b8_toNat (n : Nat) : (b8 n).toNat = n % 256 := by simp [b8]

theorem be16_length (n : Nat) : (be16 n).length = 2 := rfl

/-- A two-byte field is read as it was written (R189). -/
theorem readWord_word16 (x : BitVec 16) : readWord (b8 (x.toNat / 256)) (b8 x.toNat) = x := by
  apply BitVec.eq_of_toNat_eq
  simp only [readWord, rd16, b8_toNat, BitVec.toNat_ofNat]
  have := x.isLt
  omega

/-- A four-byte field is read as it was written (R189). -/
theorem readLong_be32 (x : BitVec 32) :
    readLong (b8 (x.toNat / 16777216)) (b8 (x.toNat / 65536)) (b8 (x.toNat / 256)) (b8 x.toNat) = x := by
  apply BitVec.eq_of_toNat_eq
  simp only [readLong, rd16, b8_toNat, BitVec.toNat_ofNat]
  have := x.isLt
  omega

/-- The samples of a payload are read as they were written (R190). -/
theorem parseSamples_bytes (xs : List SpeedSample) : parseSamples (xs.flatMap sampleBytes) = some xs := by
  induction xs with
  | nil => rfl
  | cons x xs ih =>
    show parseSamples (x.axle :: b8 (x.speed.toNat / 256) :: b8 x.speed.toNat :: x.quality :: xs.flatMap sampleBytes) = _
    unfold parseSamples
    rw [ih, readWord_word16]

theorem samples_length (xs : List SpeedSample) : (xs.flatMap sampleBytes).length = 4 * xs.length := by
  induction xs with
  | nil => rfl
  | cons x xs ih => rw [List.flatMap_cons, List.length_append, ih, List.length_cons]; show 4 + _ = _; omega

theorem body_length (f : Frame) : f.body.length = f.payload.length + 5 := by
  simp only [Frame.body, List.length_append, List.length_cons, List.length_nil]
  omega

theorem sealed_payload (k d s q : Byte) (p : List Byte) : (Frame.sealed k d s q p).payload = p := rfl

/-- A frame with its own CRC and at most 56 payload bytes passes the port checks (R4). -/
theorem sealed_passes (k d s q : Byte) (p : List Byte) (h : p.length ≤ 56) :
    checkArrival (Frame.sealed k d s q p).bytes = .frame (Frame.sealed k d s q p) := by
  generalize hf : Frame.sealed k d s q p = f
  have hp : f.payload = p := by rw [← hf]; rfl
  have hc : f.crc = crc16 f.body := by rw [← hf]; rfl
  have hl : f.bytes.length = f.payload.length + 7 := by
    simp only [Frame.bytes, List.length_append, body_length, be16_length]
  have hb : f.bytes = f.body ++ [b8 (f.crc.toNat / 256), b8 f.crc.toNat] := rfl
  have n2 : f.bytes.length - 2 = f.body.length := by rw [hl, body_length]; omega
  have t : f.bytes.take (f.bytes.length - 2) = f.body := by rw [n2, hb]; simp
  have g0 : f.bytes.getD (f.bytes.length - 2) 0 = b8 (f.crc.toNat / 256) := by
    rw [n2, hb, List.getD_eq_getElem?_getD, List.getElem?_append_right (Nat.le_refl _)]; simp
  have g1 : f.bytes.getD (f.bytes.length - 1) 0 = b8 f.crc.toNat := by
    rw [show f.bytes.length - 1 = f.body.length + 1 by rw [hl, body_length]; omega, hb, List.getD_eq_getElem?_getD,
      List.getElem?_append_right (by omega)]
    simp
  have g4 : f.bytes.getD 4 0 = b8 f.payload.length := rfl
  have g4n : (f.bytes.getD 4 0).toNat = f.payload.length := by rw [g4, b8_toNat, hp]; omega
  have r : readFrame f.bytes = some f := by
    have e : f.bytes = f.kind :: f.dest :: f.src :: f.seq :: b8 f.payload.length ::
        (f.payload ++ [b8 (f.crc.toNat / 256), b8 f.crc.toNat]) := rfl
    rw [e]
    unfold readFrame
    have e2 : (f.payload ++ [b8 (f.crc.toNat / 256), b8 f.crc.toNat]).length - 2 = f.payload.length := by simp
    have e3 : (f.payload ++ [b8 (f.crc.toNat / 256), b8 f.crc.toNat]).take f.payload.length = f.payload := by simp
    have e4 : (f.payload ++ [b8 (f.crc.toNat / 256), b8 f.crc.toNat]).getD f.payload.length 0 = b8 (f.crc.toNat / 256) := by
      rw [List.getD_eq_getElem?_getD, List.getElem?_append_right (Nat.le_refl _)]; simp
    have e5 : (f.payload ++ [b8 (f.crc.toNat / 256), b8 f.crc.toNat]).getD (f.payload.length + 1) 0 = b8 f.crc.toNat := by
      rw [List.getD_eq_getElem?_getD, List.getElem?_append_right (by omega)]; simp
    simp only [e2, e3, e4, e5, readWord_word16]
  unfold checkArrival
  dsimp only
  rw [if_neg (by rw [hl, hp]; omega), t, g0, g1, readWord_word16, if_neg (by rw [hc]; exact fun h => h rfl), g4n,
    if_neg (by rw [hp]; omega), if_neg (by rw [hl]; exact fun h => h rfl), r]

theorem requestFrame_passes (h : ReqHead) (code : Byte) (ps : List Byte) (l : ps.length ≤ 51) :
    checkArrival (requestFrame h code ps).bytes = .frame (requestFrame h code ps) := by
  refine sealed_passes _ _ _ _ _ ?_
  simp only [List.length_append, List.length_cons, List.length_nil, word16, be16_length]
  omega

end Sys2Proof.Machine
end

