-- ==== Sys2Proof/Laws/PerInstr.lean ====
section
/-!
SUPPORT. The family FramePasses: the frame that a well-formed command stands for passes the port checks, which read
that very frame from its bytes. One lemma per command.
-/

namespace Sys2Proof.Laws.FramePasses

open Sys2Proof Sys2Proof.Machine

/-- The frame a well-formed command stands for passes the four checks of R4. -/
def Statement (i : Instr) : Prop :=
  WellFormed i = true → ∀ p f, frameOf i = some (p, f) → checkArrival f.bytes = .frame f

/-- A command that is no frame. -/
theorem ofNone {i : Instr} (h : frameOf i = none) : Statement i := fun _ p f e => by rw [h] at e; exact absurd e (by simp)

/-- A request with at most 51 parameter bytes. -/
theorem ofRequest {i : Instr} {h : ReqHead} {code : Byte} {ps : List Byte}
    (e : frameOf i = some (h.port, requestFrame h code ps)) (l : WellFormed i = true → ps.length ≤ 51) :
    Statement i := fun w p f x => by
  rw [e] at x
  have : f = requestFrame h code ps := by simpa using (congrArg (fun y => y.map Prod.snd) x).symm
  rw [this]; exact requestFrame_passes h code ps (l w)

/-- A policed frame with at most 56 payload bytes. -/
theorem ofHead {i : Instr} {h : FrameHead} {kind : Byte} {payload : List Byte}
    (e : frameOf i = some (h.port, headFrame h kind payload)) (l : WellFormed i = true → payload.length ≤ 56) :
    Statement i := fun w p f x => by
  rw [e] at x
  have : f = headFrame h kind payload := by simpa using (congrArg (fun y => y.map Prod.snd) x).symm
  rw [this]; exact sealed_passes _ _ _ _ _ (l w)

theorem powerOnReset (pos : BitVec 2) (adr : BitVec 5) : Statement (.powerOnReset pos adr) := ofNone rfl
theorem frameArrival (port : PortId) (bytes : List Byte) : Statement (.frameArrival port bytes) := ofNone rfl
theorem demand (h : FrameHead) (service independent : BitVec 16) (flags : Byte) :
    Statement (.demand h service independent flags) :=
  ofHead (h := h) rfl (fun _ => Nat.le_of_ble_eq_true rfl)
theorem axleSpeed (h : FrameHead) (samples : List SpeedSample) : Statement (.axleSpeed h samples) :=
    ofHead (h := h) rfl (by intro w; rw [samples_length]; simp [WellFormed] at w; omega)
theorem groundSpeed (h : FrameHead) (speed : BitVec 16) (quality : Byte) : Statement (.groundSpeed h speed quality) :=
    ofHead (h := h) rfl (fun _ => Nat.le_of_ble_eq_true rfl)
theorem effortReport (h : FrameHead) (axle : Byte) (effort : BitVec 16) (status : Byte) :
    Statement (.effortReport h axle effort status) :=
  ofHead (h := h) rfl (fun _ => Nat.le_of_ble_eq_true rfl)
theorem pressureReport (h : FrameHead) (bogie : Byte) (pressure : BitVec 16) (status : Byte) :
    Statement (.pressureReport h bogie pressure status) :=
  ofHead (h := h) rfl (fun _ => Nat.le_of_ble_eq_true rfl)
theorem transmissionComplete (port : PortId) : Statement (.transmissionComplete port) := ofNone rfl
theorem silenceTimerExpiry (port : PortId) : Statement (.silenceTimerExpiry port) := ofNone rfl
theorem stationFreshnessExpiry (address : Byte) : Statement (.stationFreshnessExpiry address) := ofNone rfl
theorem stationConcealExpiry (address : Byte) : Statement (.stationConcealExpiry address) := ofNone rfl
theorem axleFreshnessExpiry (axle : Fin 12) : Statement (.axleFreshnessExpiry axle) := ofNone rfl
theorem axleConcealExpiry (axle : Fin 12) : Statement (.axleConcealExpiry axle) := ofNone rfl
theorem releaseConfirmExpiry : Statement (.releaseConfirmExpiry) := ofNone rfl
theorem referenceLostExpiry : Statement (.referenceLostExpiry) := ofNone rfl
theorem allowanceTimerExpiry (axle : Fin 3) : Statement (.allowanceTimerExpiry axle) := ofNone rfl
theorem dumpTimerExpiry : Statement (.dumpTimerExpiry) := ofNone rfl
theorem holdTimerExpiry : Statement (.holdTimerExpiry) := ofNone rfl
theorem stepTimerExpiry : Statement (.stepTimerExpiry) := ofNone rfl
theorem mismatchTimerExpiry : Statement (.mismatchTimerExpiry) := ofNone rfl
theorem handoverTimerExpiry : Statement (.handoverTimerExpiry) := ofNone rfl
theorem refreshTimerExpiry (output : Fin 4) : Statement (.refreshTimerExpiry output) := ofNone rfl
theorem claimHeaderWriteComplete (slot : Fin 16) : Statement (.claimHeaderWriteComplete slot) := ofNone rfl
theorem commitEraseComplete : Statement (.commitEraseComplete) := ofNone rfl
theorem recordCellWriteComplete : Statement (.recordCellWriteComplete) := ofNone rfl
theorem commitHeaderWriteComplete : Statement (.commitHeaderWriteComplete) := ofNone rfl
theorem protectHeaderWriteComplete (slot : Fin 16) : Statement (.protectHeaderWriteComplete slot) := ofNone rfl
theorem eraseComplete (slot : Fin 16) : Statement (.eraseComplete slot) := ofNone rfl
theorem scanOperationComplete : Statement (.scanOperationComplete) := ofNone rfl
theorem identify (h : ReqHead) : Statement (.identify h) := ofRequest (h := h) rfl (fun _ => Nat.zero_le _)
theorem readStatus (h : ReqHead) (page : Byte) : Statement (.readStatus h page) :=
    ofRequest (h := h) rfl (fun _ => Nat.le_of_ble_eq_true rfl)
theorem setMode (h : ReqHead) (target : Byte) : Statement (.setMode h target) :=
    ofRequest (h := h) rfl (fun _ => Nat.le_of_ble_eq_true rfl)
theorem setNotice (h : ReqHead) (address enables : Byte) : Statement (.setNotice h address enables) :=
    ofRequest (h := h) rfl (fun _ => Nat.le_of_ble_eq_true rfl)
theorem restart (h : ReqHead) : Statement (.restart h) := ofRequest (h := h) rfl (fun _ => Nat.zero_le _)
theorem setPort (h : ReqHead) (port threshold clear : Byte) : Statement (.setPort h port threshold clear) :=
    ofRequest (h := h) rfl (fun _ => Nat.le_of_ble_eq_true rfl)
theorem readPort (h : ReqHead) (port : Byte) : Statement (.readPort h port) :=
    ofRequest (h := h) rfl (fun _ => Nat.le_of_ble_eq_true rfl)
theorem setStation (h : ReqHead) (address role side count b0 b1 b2 b3 : Byte) (fresh conceal : BitVec 16) :
    Statement (.setStation h address role side count b0 b1 b2 b3 fresh conceal) :=
  ofRequest (h := h) rfl (fun _ => Nat.le_of_ble_eq_true rfl)
theorem clearStation (h : ReqHead) (address : Byte) : Statement (.clearStation h address) :=
    ofRequest (h := h) rfl (fun _ => Nat.le_of_ble_eq_true rfl)
theorem readStation (h : ReqHead) (address : Byte) : Statement (.readStation h address) :=
    ofRequest (h := h) rfl (fun _ => Nat.le_of_ble_eq_true rfl)
theorem setMatch (h : ReqHead) (entry enable kind source offset value mask : Byte) :
    Statement (.setMatch h entry enable kind source offset value mask) :=
  ofRequest (h := h) rfl (fun _ => Nat.le_of_ble_eq_true rfl)
theorem readAxle (h : ReqHead) : Statement (.readAxle h) := ofRequest (h := h) rfl (fun _ => Nat.zero_le _)
theorem restoreAxle (h : ReqHead) : Statement (.restoreAxle h) := ofRequest (h := h) rfl (fun _ => Nat.zero_le _)
theorem readBogie (h : ReqHead) (part : Byte) : Statement (.readBogie h part) :=
    ofRequest (h := h) rfl (fun _ => Nat.le_of_ble_eq_true rfl)
theorem setRestriction (h : ReqHead) (entry select enable invert priority path : Byte) (action : BitVec 16) (trigger edge force : Byte) :
    Statement (.setRestriction h entry select enable invert priority path action trigger edge force) :=
  ofRequest (h := h) rfl (fun _ => Nat.le_of_ble_eq_true rfl)
theorem readRestrictions (h : ReqHead) (start : Byte) : Statement (.readRestrictions h start) :=
    ofRequest (h := h) rfl (fun _ => Nat.le_of_ble_eq_true rfl)
theorem ackRestrictions (h : ReqHead) (mask : BitVec 32) : Statement (.ackRestrictions h mask) :=
    ofRequest (h := h) rfl (fun _ => Nat.le_of_ble_eq_true rfl)
theorem setLimiter (h : ReqHead) (path value : Byte) : Statement (.setLimiter h path value) :=
    ofRequest (h := h) rfl (fun _ => Nat.le_of_ble_eq_true rfl)
theorem loadSegment (h : ReqHead) (selector : Byte) (contents : List Byte) :
    Statement (.loadSegment h selector contents) :=
  ofRequest (h := h) rfl (by intro w; simpa [WellFormed, maxParams] using w)
theorem adopt (h : ReqHead) : Statement (.adopt h) := ofRequest (h := h) rfl (fun _ => Nat.zero_le _)
theorem discardStaged (h : ReqHead) : Statement (.discardStaged h) := ofRequest (h := h) rfl (fun _ => Nat.zero_le _)
theorem setRecorder (h : ReqHead) (pre post : BitVec 16) (policy sliding : Byte) :
    Statement (.setRecorder h pre post policy sliding) :=
  ofRequest (h := h) rfl (fun _ => Nat.le_of_ble_eq_true rfl)
theorem readIncidents (h : ReqHead) (start : Byte) : Statement (.readIncidents h start) :=
    ofRequest (h := h) rfl (fun _ => Nat.le_of_ble_eq_true rfl)
theorem setCursor (h : ReqHead) (slot : Byte) (index : BitVec 16) : Statement (.setCursor h slot index) :=
    ofRequest (h := h) rfl (fun _ => Nat.le_of_ble_eq_true rfl)
theorem readRecords (h : ReqHead) : Statement (.readRecords h) := ofRequest (h := h) rfl (fun _ => Nat.zero_le _)
theorem protect (h : ReqHead) (slot : Byte) : Statement (.protect h slot) :=
    ofRequest (h := h) rfl (fun _ => Nat.le_of_ble_eq_true rfl)
theorem unprotect (h : ReqHead) (slot : Byte) : Statement (.unprotect h slot) :=
    ofRequest (h := h) rfl (fun _ => Nat.le_of_ble_eq_true rfl)
theorem eraseIncident (h : ReqHead) (slot : Byte) : Statement (.eraseIncident h slot) :=
    ofRequest (h := h) rfl (fun _ => Nat.le_of_ble_eq_true rfl)
theorem trigger (h : ReqHead) (subject : Byte) (mark : List Byte) : Statement (.trigger h subject mark) :=
    ofRequest (h := h) rfl (by intro w; simpa [WellFormed, maxParams] using w)
theorem unknownRequestCode (h : ReqHead) (code : Byte) (params : List Byte) :
    Statement (.unknownRequestCode h code params) :=
  ofRequest (h := h) rfl (by intro w; simp [WellFormed, maxParams] at w; exact of_decide_eq_true w.2)
theorem eraseHeaderWriteComplete (slot : Fin 16) : Statement (.eraseHeaderWriteComplete slot) := ofNone rfl

end Sys2Proof.Laws.FramePasses
end

