-- ==== Sys2Proof/Laws/Walks.lean ====
section
/-!
SUPPORT. Instances of the walks: what every command keeps of the queue, the clock and the identity; what the ports
hold across the consumption of a frame.
-/

namespace Sys2Proof.Machine

/-! ### The ports -/

theorem calm_flows {x y : Port} (c : Calm x y) : (x.forward.length ≤ 15 → y.forward.length ≤ 15) ∧ PortKeeps x y := by
  refine ⟨fun h => by rw [c.forward]; exact h, ⟨fun o h => ?_, fun f h => ?_, fun k h => ?_, fun _ _ _ => c.forward⟩⟩
  · unfold Port.carries at *; rw [c.forward, c.tx]; exact h
  · unfold Port.passes at *; rw [c.forward, c.tx]; exact h
  · rw [c.tx, c.fairness]; exact ⟨h, rfl⟩

theorem withLink_flows (s : State) (l : Link) (a : Calm s.link.a l.a) (b : Calm s.link.b l.b) :
    Flows s (s.withLink l) := by
  refine ⟨fun p h => ?_, fun p => ?_⟩
  · cases p
    · exact (calm_flows a).1 h
    · exact (calm_flows b).1 h
  · cases p
    · exact (calm_flows a).2
    · exact (calm_flows b).2

theorem withdrawn_flows (s : State) :
    Flows s (s.withLink { s.link with a := s.link.a.withdrawn, b := s.link.b.withdrawn }) := by
  refine ⟨fun p h => ?_, fun p => ?_⟩
  · cases p <;> exact h
  · cases p <;> exact ⟨fun _ h => h, fun _ h => h, fun _ h => ⟨h, rfl⟩, fun _ _ _ => rfl⟩

theorem clearAxle_link (s : State) (i : Fin 3) : (s.clearAxle i).link = s.link := by
  unfold State.clearAxle State.changeAxle State.recordAxle
  dsimp only
  split
  · rfl
  · split <;> simp [State.putAxle]

theorem leaveActive_flows (s : State) : Flows s s.leaveActive := by
  unfold State.leaveActive
  dsimp only
  refine Flows.trans ?_ (flows_of_link (placeNotice_link _ _ _ _))
  refine Flows.trans ?_ (flows_of_link (writeRecord_link _ _ _ _))
  refine Flows.trans ?_ (handOn_flows _ _)
  refine Flows.trans (withdrawn_flows s) (flows_of_link ?_)
  simp [State.putAir, foldl_link _ clearAxle_link]

/-- What the ports hold, across every operation of the blocks. -/
theorem flowsWalk : Walk Flows where
  refl := Flows.refl
  trans := Flows.trans
  cls _ _ := flows_of_link rfl
  demand _ _ _ := flows_of_link rfl
  slide _ _ := flows_of_link rfl
  air _ _ := flows_of_link rfl
  blend _ _ := flows_of_link rfl
  banks _ _ := flows_of_link rfl
  work _ _ := flows_of_link rfl
  link s l a b _ := withLink_flows s l a b
  record s k b d _ := flows_of_link (writeRecord_link s k b d)
  trigger s x b := flows_of_link (sendTrigger_link s x b)
  notice s k b v := flows_of_link (placeNotice_link s k b v)
  settle := settle_flows
  handOn := handOn_flows
  command s p c _ := offerCommand_flows s p c
  leave := leaveActive_flows
  forward := offerForwarded_flows

/-! ### The queue, the clock and the identity -/

/-- Queue, clock and identity are the same. -/
structure Fixed (s t : State) : Prop where
  pending : t.pending = s.pending
  clock : t.clock = s.clock
  ident : t.ident = s.ident

theorem Fixed.refl (s : State) : Fixed s s := ⟨rfl, rfl, rfl⟩
theorem Fixed.trans {s t u : State} (h : Fixed s t) (k : Fixed t u) : Fixed s u :=
  ⟨k.pending.trans h.pending, k.clock.trans h.clock, k.ident.trans h.ident⟩
theorem fixed_of_base {s t : State} (h : t.base = s.base) : Fixed s t := ⟨base_pending h, base_clock h, base_ident h⟩
theorem fixed_of_far {s t : State} (h : t.far = s.far) : Fixed s t :=
  ⟨congrArg Far.pending h, congrArg Far.clock h, congrArg Far.ident h⟩

theorem fixedWalk : Walk Fixed where
  refl := Fixed.refl
  trans := Fixed.trans
  cls _ _ := ⟨rfl, rfl, rfl⟩
  demand _ _ _ := ⟨rfl, rfl, rfl⟩
  slide _ _ := ⟨rfl, rfl, rfl⟩
  air _ _ := ⟨rfl, rfl, rfl⟩
  blend _ _ := ⟨rfl, rfl, rfl⟩
  banks _ _ := ⟨rfl, rfl, rfl⟩
  work _ _ := ⟨rfl, rfl, rfl⟩
  link _ _ _ _ _ := ⟨rfl, rfl, rfl⟩
  record s k b d _ := fixed_of_base (writeRecord_base s k b d)
  trigger s x b := fixed_of_base (sendTrigger_base s x b)
  notice s k b v := fixed_of_base (placeNotice_base s k b v)
  settle s := fixed_of_base (settle_base s)
  handOn s ks := fixed_of_base (handOn_base s ks)
  command s p c _ := fixed_of_base (held_base (offerCommand_held s p c))
  leave s := fixed_of_far (leaveActive_far s)
  forward s p f := fixed_of_base (held_base (offerForwarded_held s p f))

/-! ### Owners' writes -/

theorem updateEntry_parts (s : State) (i : Fin 20) (e : Entry) :
    (s.updateEntry i e).held = (s.putEntry i e).held := by
  have h : ∀ e1 : Entry, e1.base = e.base → (s.putEntry i e1).held = (s.putEntry i e).held := by
    intro e1 h1
    have : (s.restrict.entries.set i e1).map Entry.base = (s.restrict.entries.set i e).map Entry.base := by
      apply Vec.ext_get
      intro j
      rw [Vec.get_map, Vec.get_map, Vec.get_set, Vec.get_set]
      split
      · exact h1
      · rfl
    simp [State.held, State.base, State.putEntry, this]
  unfold State.updateEntry; dsimp only
  split
  · rw [takeEdge_held _ _ _ (by rw [putEntry_entry])]
    exact h _ rfl
  · exact h _ rfl

/-- What SET_RESTRICTION leaves differs in the entry's settings alone. -/
theorem writeEntry_held (s : State) (i : Fin 20) (x : RestrictParams) :
    (s.writeEntry i x).held = (s.putEntry i (x.apply (s.entry i))).held := by
  unfold State.writeEntry; dsimp only
  rw [callEvalIf_held, recomputeGov_held, updateEntry_parts]

theorem restartRecorder_base (s : State) : s.restartRecorder.base = s.base := by
  unfold State.restartRecorder; dsimp only; split
  · rw [held_base (beginCommit_held _ _)]; exact withHist_base _ _ rfl
  · exact withHist_base _ _ rfl

theorem takeSetRestriction_fixed (s : State) (n : Byte) (x : RestrictParams) :
    Fixed s (takeSetRestriction n x s).1 := by
  unfold takeSetRestriction; split
  · split
    · rw [done_fst]
      have h := fixed_of_base (held_base (writeEntry_held s ⟨n.toNat - 1, by omega⟩ x))
      exact Fixed.trans ⟨h.pending, h.clock, h.ident⟩ (fixed_of_base (settle_base _))
    · exact Fixed.refl s
  · exact Fixed.refl s

theorem takeSetLimiter_fixed (s : State) (p v : Byte) : Fixed s (takeSetLimiter p v s).1 := by
  unfold takeSetLimiter; split
  · rw [done_fst]; refine Fixed.trans ?_ (fixed_of_base (held_base (recomputeGov_held _))); exact ⟨rfl, rfl, rfl⟩
  · rw [done_fst]; refine Fixed.trans ?_ (fixed_of_base (held_base (recomputeGov_held _))); exact ⟨rfl, rfl, rfl⟩
  · exact Fixed.refl s
  · exact Fixed.refl s

theorem restartMode_fixed (s : State) : Fixed s s.restartMode := by
  unfold State.restartMode; split
  · exact fixedWalk.enterActive s _
  · exact ⟨rfl, rfl, rfl⟩

theorem restartBlocks_fixed (s : State) : Fixed s s.restartBlocks :=
  ⟨by simp [State.restartBlocks], by simp [State.restartBlocks], by simp [State.restartBlocks]⟩

theorem takeRestart_fixed (s : State) : Fixed s (takeRestart s).1 := by
  unfold takeRestart; split
  · exact Fixed.refl s
  · rw [done_fst]
    refine Fixed.trans ?_ (restartMode_fixed _)
    refine Fixed.trans ?_ (fixedWalk.openApplication _)
    refine Fixed.trans ?_ (fixedWalk.handOn _ _)
    exact Fixed.trans (fixed_of_base (restartRecorder_base s)) (restartBlocks_fixed _)

theorem popOp_fixed (s : State) (k : Fin 16) (op : HeaderOp) : Fixed s (s.popOp k op) := by
  obtain ⟨x, e⟩ := popOp_store s k op; rw [e]; exact ⟨rfl, rfl, rfl⟩
theorem putSlot_fixed (s : State) (k : Fin 16) (x : Slot) : Fixed s (s.putSlot k x) := ⟨rfl, rfl, rfl⟩

theorem claimed_fixed (s : State) (k : Fin 16) : Fixed s (s.claimed k) := by
  unfold State.claimed; split
  · exact Fixed.refl s
  · split
    · dsimp only; split
      · refine Fixed.trans ?_ (fixed_of_base (held_base (startCommit_held _ _))); exact ⟨rfl, rfl, rfl⟩
      · exact ⟨rfl, rfl, rfl⟩
    · exact Fixed.refl s

theorem leaveSlot_fixed (s : State) (k : Fin 16) : Fixed s (s.leaveSlot k) := fixed_of_base (held_base (leaveSlot_held s k))

theorem scanFrom_fixed (s : State) (l : List (Fin 16)) : Fixed s (s.scanFrom l) := by
  induction l with
  | nil => exact ⟨rfl, rfl, rfl⟩
  | cons k ks ih =>
    unfold State.scanFrom; split
    · exact ⟨rfl, rfl, rfl⟩
    · exact ⟨rfl, rfl, rfl⟩
    · exact ⟨rfl, rfl, rfl⟩
    · exact ih

theorem scanEnded_fixed (s : State) : Fixed s s.scanEnded := by
  unfold State.scanEnded; split
  · exact Fixed.trans (fixedWalk.handOn s _) (fixed_of_base (held_base (serveQueue_held _)))
  · exact Fixed.refl s

theorem scanned_fixed (s : State) (x : Scan) : Fixed s (s.scanned x) := by
  unfold State.scanned; split
  · refine Fixed.trans ?_ (scanFrom_fixed _ _); exact ⟨rfl, rfl, rfl⟩
  · exact ⟨rfl, rfl, rfl⟩
  · refine Fixed.trans ?_ (scanFrom_fixed _ _); exact ⟨rfl, rfl, rfl⟩

theorem onSlot_fixed (s : State) (b : Byte) (take : Fin 16 → Taken) (h : ∀ k, Fixed s (take k).1) :
    Fixed s (s.onSlot b take).1 := by
  unfold State.onSlot; split
  · exact Fixed.refl s
  · split
    · exact h _
    · exact Fixed.refl s

theorem guardSlot_fixed (s : State) (k : Fin 16) (b : Bool) : Fixed s (s.guardSlot k b) := by
  unfold State.guardSlot; dsimp only; split <;> exact ⟨rfl, rfl, rfl⟩

theorem beginErase_fixed (s : State) (k : Fin 16) : Fixed s (s.beginErase k) := by
  obtain ⟨x, e⟩ := beginErase_store s k; rw [e]
  exact Fixed.trans (t := s.withStore x) ⟨rfl, rfl, rfl⟩ (leaveSlot_fixed _ k)

theorem goIdle_fixed (s : State) : Fixed s s.goIdle := ⟨rfl, rfl, rfl⟩

theorem closeSlot_fixed (s : State) (k : Fin 16) (op : HeaderOp) : Fixed s (s.closeSlot k op) := by
  have h : Fixed s ((s.popOp k op).putHeader k op.content) := Fixed.trans (popOp_fixed s k op) (putSlot_fixed _ k _)
  unfold State.closeSlot; exact ⟨by simpa using h.pending, by simpa using h.clock, by simpa using h.ident⟩

theorem pushOp_fixed (s : State) (k : Fin 16) (o : HeaderOpKind) (c : Header) : Fixed s (s.pushOp k o c) :=
  ⟨rfl, rfl, rfl⟩

theorem freeSlot_fixed (s : State) (k : Fin 16) : Fixed s (s.freeSlot k) := by
  unfold State.freeSlot; exact Fixed.trans (putSlot_fixed s k _) (pushOp_fixed _ k _ _)

theorem fixedSteps : Steps Fixed where
  toWalk := fixedWalk
  reply s p o := fixed_of_base (offerReply_base s p o)
  malformed _ := ⟨rfl, rfl, rfl⟩
  sent _ _ := ⟨rfl, rfl, rfl⟩
  setNotice s p a e := by
    unfold takeSetNotice; split
    · exact Fixed.refl s
    · exact ⟨rfl, rfl, rfl⟩
  restart := takeRestart_fixed
  setPort s p t c := by
    unfold takeSetPort; split
    · exact Fixed.refl s
    · dsimp only; rw [done_fst]; split <;> exact ⟨rfl, rfl, rfl⟩
  setRestriction := takeSetRestriction_fixed
  ackRestrictions s m := by
    unfold takeAckRestrictions; split
    · exact ⟨rfl, rfl, rfl⟩
    · exact Fixed.refl s
  setLimiter := takeSetLimiter_fixed
  setRecorder s p q a b := by
    unfold takeSetRecorder; split
    · exact Fixed.refl s
    · split
      · exact Fixed.refl s
      · exact ⟨rfl, rfl, rfl⟩
  cursor _ _ := ⟨rfl, rfl, rfl⟩
  guard s b k := onSlot_fixed s k _ (fun j => by
    dsimp only; split
    · rw [done_fst]; exact Fixed.trans (guardSlot_fixed s j b) (fixedWalk.settle _)
    · exact Fixed.refl s)
  erase s k := onSlot_fixed s k _ (fun j => by
    split
    · rw [done_fst]; exact beginErase_fixed s j
    · exact Fixed.refl s)
  claimed s k op := Fixed.trans (popOp_fixed s k op) (claimed_fixed _ k)
  commitErased s i _ := Fixed.trans (putSlot_fixed s _ _) (fixed_of_base (held_base (commitFrom_held _ _ _)))
  cellWritten s i k _ := by
    refine Fixed.trans ?_ (fixed_of_base (held_base (commitFrom_held _ _ _)))
    unfold State.storeRecord; split
    · exact ⟨rfl, rfl, rfl⟩
    · exact Fixed.refl s
  committed s i op _ := by
    refine Fixed.trans ?_ (fixed_of_base (held_base (serveQueue_held _)))
    refine Fixed.trans ?_ (goIdle_fixed _)
    refine Fixed.trans ?_ (fixedWalk.handOn _ _)
    exact Fixed.trans (closeSlot_fixed s i.slot op) (fixedWalk.notice _ _ _ _)
  popped := popOp_fixed
  freed s k := Fixed.trans (freeSlot_fixed s k) (fixedWalk.handOn _ _)
  scanned s x _ := Fixed.trans (scanned_fixed s x) (scanEnded_fixed _)

end Sys2Proof.Machine
end

