-- ==== Sys2Proof/Tests/Slice0.lean ====
section
/-!
SUPPORT. Tests of the model against the manual's worked cases and rules, the smoke of WellFormed, and the witnesses of
the statements' hypotheses. Each expected value is the manual's, named where it stands.
-/

namespace Sys2Proof.Tests

open Sys2Proof Sys2Proof.Machine

-- one theorem at a time: these kernel evaluations side by side run out of threads
set_option Elab.async false

/-- A test on the state after a command. -/
def after (c : Instr) (s : State) (f : State → Bool) : Bool := match exec c s with
  | .next t => f t
  | _ => false

/-! ### A bogie of the worked cases -/

/-- The curve of the worked case of section 6.2. -/
def curve : Curve := ⟨7, writeFrom (Vec.fill 16 ⟨0, 0⟩) 0
  [⟨0, 0⟩, ⟨60, 0⟩, ⟨150, 700⟩, ⟨250, 900⟩, ⟨600, 900⟩, ⟨1000, 550⟩, ⟨1200, 450⟩]⟩

/-- Band 1 of the worked case of section 4.2, below seven others. -/
def bands : Vec Band 8 := ⟨[⟨100, 150, 60, 60, 2, 400, 200⟩, ⟨300, 150, 60, 60, 2, 400, 200⟩,
  ⟨400, 150, 60, 60, 2, 400, 200⟩, ⟨500, 150, 60, 60, 2, 400, 200⟩, ⟨600, 150, 60, 60, 2, 400, 200⟩,
  ⟨700, 150, 60, 60, 2, 400, 200⟩, ⟨800, 150, 60, 60, 2, 400, 200⟩, ⟨2000, 150, 60, 60, 2, 400, 200⟩], rfl⟩

/-- The tables of the worked cases: handover set 1 and 9, A_fall 25, V_min 30, T_slide_max 3000. -/
def tables : Tables := ⟨curve, ⟨3, 3600, 220, 30, 420, 500, 300, 50, 50, false⟩, bands,
  ⟨1, 9, 1, 9, 3000, 2000, 500, 25, 30, 100, 500, 20, 500, 1000, 20, 1000⟩⟩

/-- An entry that is fresh. -/
def fresh (address : Byte) (role : Role) (bound : List Nat) : Station :=
  { Station.written address role .b bound 100 200 0 with state := .fresh }

/-- Position 0, ACTIVE and APPLIED, L = 750, at time 1000 with Vref 130 and acc 600 of time 960. -/
def bogie : State := { State.reset with
  clock := ⟨1000, 0, 0⟩
  banks := { Banks.reset with active := some tables }
  demand := ⟨750, 0, .none, false, .applied, 1, none, .active⟩
  slide := { Slide.reset with vref := 130, acc := 600, lastUpdate := 960, lastSpeedRecord := 900 }
  cls := { Classifier.reset with
    stations := [fresh 40 .cab [], fresh 41 .axleUnit [0, 1, 2], fresh 42 .radar [],
      { fresh 43 .converter [0] with lastStatus := .derated }, { fresh 44 .converter [1] with lastStatus := .derated },
      { fresh 45 .converter [2] with lastStatus := .derated }, fresh 46 .valve [0], fresh 47 .peer []] } }

def head (src : Byte) : FrameHead := ⟨.b, 127, src, 1⟩

/-- A request of node 100 on port A. -/
def ask : ReqHead := ⟨.a, 4, 100, 1, 7, 0, 0⟩

/-- The same with a scope, and to the brake group. -/
def askOf (kind number : Byte) : ReqHead := { ask with scopeKind := kind, scopeNumber := number }
def groupOf (kind number : Byte) : ReqHead := { askOf kind number with dest := 127 }

/-- CONVERTER_DERATED governs the ELECTRIC path, acknowledged (sections 6.2 and 7.6). -/
def derated (s : State) : State :=
  (s.putEntry 9 { s.entry 9 with condition := true, pending := true }).withRestrict
    { (s.putEntry 9 { s.entry 9 with condition := true, pending := true }).restrict with govElectric := 10 }

/-- Own axle 2's slide record replaced in a unit where all are clear. -/
def thirdAxle (r : SlideRecord) : Vec SlideRecord 3 := ⟨[SlideRecord.reset, SlideRecord.reset, r], rfl⟩

/-- An axle's achieved effort and commanded effort. -/
def withOut (s : State) (i : Fin 3) (achieved effort start : Nat) : State :=
  s.putOut i { s.out i with achieved := achieved, content := ⟨effort, false⟩, start := start }

/-- The worked case of section 6.2 before step 1 of section 6.3: Vref 130, efforts 435, the reference 400 ms old. -/
def wet : State :=
  let s0 := derated { bogie with
    clock := ⟨3000, 0, 0⟩
    slide := { bogie.slide with
      acc := 0, lastUpdate := 2600, lastSpeedRecord := 2900
      axles := thirdAxle { SlideRecord.reset with state := .suspect, suspect := 1 } }
    air := { Air.reset with pSet := 383 } }
  let s1 := withOut (withOut (withOut s0 0 300 435 0) 1 360 435 0) 2 430 435 0
  s1.withBlend { s1.blend with fPrev := 2700 }

/-- Step 3 of section 6.3: Vref 119, the hold running with starts of 435, axle 2 sliding, the sequencer in DUMP. -/
def held : State :=
  let s0 := derated { bogie with
    clock := ⟨3080, 0, 0⟩
    slide := { bogie.slide with
      vref := 119, acc := 0, lastUpdate := 3040
      axles := thirdAxle { SlideRecord.reset with state := .sliding, factor := 400 } }
    air := { Air.reset with state := .dump, pSet := 396, dumpStart := 3000, dumpTimer := some ⟨3000, 2000⟩ } }
  let s1 := withOut (withOut (withOut s0 0 300 435 435) 1 360 435 435) 2 430 146 148
  s1.withBlend { s1.blend with fPrev := 2700, handover := some ⟨3000, 200⟩ }

/-! ### Worked cases of the manual -/

/-- R4: a 5-byte fragment is a length reject. -/
theorem test_fragment_is_length_reject : after (.frameArrival .a [1, 2, 3, 4, 5]) State.reset
    (fun t => decide (t.link.a.lengthRejects = 1 ∧ t.link.a.crcRejects = 0)) = true := by decide +kernel

/-- R4: a frame of LEN + 8 bytes with a good CRC is a length reject. -/
theorem test_good_crc_wrong_length :
    let body := (Frame.sealed 0x10 5 6 7 [1, 2, 3]).body ++ [9]
    after (.frameArrival .b (body ++ be16 (crc16 body).toNat)) State.reset
      (fun t => decide (t.link.b.lengthRejects = 1 ∧ t.link.b.crcRejects = 0)) = true := by decide +kernel

/-- Section 4.2: Vref 129 with acc 600, slip 34, creep 263, SUSPECT with count 1; the others clear. -/
theorem test_creep_of_one_axle :
    after (.axleSpeed (head 41) [⟨0, 124, 0⟩, ⟨1, 123, 0⟩, ⟨2, 95, 0⟩]) bogie (fun t =>
      decide (t.slide.vref = 129 ∧ t.slide.acc = 600 ∧ (t.axle 2).state = .suspect ∧ (t.axle 2).suspect = 1 ∧
        (t.axle 2).lastSlip = 34 ∧ (t.axle 2).lastCreep = 263 ∧ (t.axle 0).state = .clear ∧
        (t.axle 0).lastCreep = 38 ∧ (t.axle 1).lastCreep = 46)) = true := by decide +kernel

/-- Section 4.5, step 2: Vref 128, SLIDING with factor 400, the fifth episode from 1040, allowance to 4040. -/
theorem test_slide_begins :
    after (.axleSpeed (head 41) [⟨0, 123, 0⟩, ⟨1, 122, 0⟩, ⟨2, 90, 0⟩])
      { bogie with
        clock := ⟨1040, 0, 0⟩
        slide := { bogie.slide with
          vref := 129, lastUpdate := 1000
          axles := thirdAxle { SlideRecord.reset with state := .suspect, suspect := 1, episodes := 4 } } } (fun t =>
      decide (t.slide.vref = 128 ∧ t.slide.acc = 600 ∧ (t.axle 2).state = .sliding ∧ (t.axle 2).factor = 400 ∧
        (t.axle 2).lastCreep = 296 ∧ (t.axle 2).episodes = 5 ∧ (t.axle 2).periodStart = 1040 ∧
        (t.axle 2).allowance = some ⟨1040, 3000⟩)) = true := by decide +kernel

/-- Sections 6.2 and 6.3, step 1: the targets, the shortfall, the air effort, the held efforts and the dump. -/
theorem test_evaluation_on_a_wet_grade :
    after (.axleSpeed (head 41) [⟨0, 120, 0⟩, ⟨1, 119, 0⟩, ⟨2, 90, 0⟩]) wet (fun t =>
      let w := t.blend.work
      decide (t.slide.vref = 120 ∧ w.fDem = 2700 ∧ w.c = 466 ∧ (w.axles.get 0).capability = 372 ∧ w.d = 900 ∧
        w.sumU = 1116 ∧ (w.axles.get 2).target = 148 ∧ (w.axles.get 0).short = 72 ∧ (w.axles.get 1).short = 0 ∧
        (w.axles.get 2).short = 0 ∧ w.fAir = 1656 ∧ w.pAuto = 394 ∧ w.pSet = 394)) = true := by decide +kernel

theorem test_falling_effort_is_held :
    after (.axleSpeed (head 41) [⟨0, 120, 0⟩, ⟨1, 119, 0⟩, ⟨2, 90, 0⟩]) wet (fun t =>
      decide ((t.out 0).content = ⟨435, false⟩ ∧ (t.out 0).pendingEffort = some 372 ∧ (t.out 1).start = 435 ∧
        (t.out 2).content = ⟨148, true⟩ ∧ (t.out 2).pendingEffort = none ∧ t.blend.handover = some ⟨3000, 200⟩ ∧
        t.air.state = .dump ∧ t.blend.pressure.content = ⟨0, .dump, false⟩)) = true := by decide +kernel

/-- Section 6.3, step 3: a lower demand cuts the hold short. -/
theorem test_lower_demand_cuts_the_hold :
    after (.demand (head 40) 700 0 0) held (fun t =>
      decide (t.blend.work.fDem = 2520 ∧ (t.out 0).content.effort = 366 ∧ (t.out 1).content.effort = 366 ∧
        (t.out 2).content.effort = 146 ∧ (t.out 0).pendingEffort = none ∧ t.blend.handover = none ∧
        t.blend.work.fAir = 1488 ∧ t.blend.work.pSet = 357)) = true := by decide +kernel

/-- Section 6.3, end: the expiry gives the targets of 366, F_air 1668 and p_set 396. -/
theorem test_handover_expiry_gives_the_targets :
    after .handoverTimerExpiry held (fun t =>
      decide ((t.out 0).content.effort = 366 ∧ (t.out 1).content.effort = 366 ∧ t.blend.work.fAir = 1668 ∧
        t.blend.work.pSet = 396 ∧ t.blend.handover = none)) = true := by decide +kernel

/-- Section 6.2, limit cases: above the last point, on the falling segment, at a point's speed. -/
theorem test_curve_limit_cases :
    (curve.capability 2000, curve.capability 700, curve.capability 150, curve.capability 120) = (450, 813, 700, 466) := by
  decide +kernel

/-- Section 7.6, step 7: a limiter of 6 leaves no entry of priority 4 to govern. -/
theorem test_limiter_removes_the_governing_entry :
    after (.setLimiter ask 0 6) (derated bogie) (fun t =>
      decide (t.restrict.govElectric = 0 ∧ t.restrict.limElectric = 6 ∧ (t.entry 9).pending = true ∧
        t.blend.work.re = 1000)) = true := by decide +kernel

/-- Section 7.7, step 1: entry 20 forced with action 350 governs the AIR path and caps the setpoint. -/
theorem test_forced_cap_governs_the_air :
    after (.setRestriction ask 20 144 0 0 0 0 350 0 0 1) (derated bogie) (fun t =>
      decide (t.restrict.govAir = 20 ∧ (t.entry 19).latched = true ∧ (t.entry 19).action = 350 ∧
        (t.entry 19).priority = 1 ∧ t.blend.work.pSet = 350 ∧ t.hist.queue = [])) = true := by decide +kernel

/-- Section 9.5: P = 256 with Q = 200 stores Q = 128. -/
theorem test_windows_share_the_cells :
    after (.setRecorder ask 256 200 1 0) State.reset (fun t =>
      decide (t.hist.pre = 256 ∧ t.hist.post = 128 ∧ t.hist.policy = .stopWhenFull ∧
        t.hist.slidingTrigger = false)) = true := by decide +kernel

/-- Section 8.4: BANDS fails BAND_ORDER at index 6, band 6's bound of 900 being not above band 5's of 900. -/
theorem test_band_order_fails_at_index_six :
    checkBands ⟨[⟨100, 2, 1, 1, 1, 0, 1⟩, ⟨200, 2, 1, 1, 1, 0, 1⟩, ⟨300, 2, 1, 1, 1, 0, 1⟩, ⟨400, 2, 1, 1, 1, 0, 1⟩,
      ⟨500, 2, 1, 1, 1, 0, 1⟩, ⟨900, 2, 1, 1, 1, 0, 1⟩, ⟨900, 2, 1, 1, 1, 0, 1⟩, ⟨2000, 2, 1, 1, 1, 0, 1⟩], rfl⟩ =
      some ⟨.bandOrder, .bands, some 6⟩ := by decide +kernel

/-- R193: v = 0 is taken as 1 and v = 31 as 30. -/
theorem test_address_base_of_the_straps :
    after (.powerOnReset 3 0) State.reset (fun t => decide (t.node = 7)) = true ∧
      after (.powerOnReset 0 31) State.reset (fun t => decide (t.ident.base = 120)) = true := by decide +kernel

/-- R85: 5, 100 and 640 ms. -/
theorem test_slide_timing_set :
    (({ tables.supervision with slideScale := 0, slideCount := 0 } : Supervision).tSlide, tables.supervision.tSlide,
      ({ tables.supervision with slideScale := 3, slideCount := 31 } : Supervision).tSlide) = (5, 100, 640) := by
  decide +kernel

/-- R134, R192: from 17 four entries are returned, and eight take 37 bytes. -/
theorem test_restriction_reply_lengths :
    ((takeReadRestrictions 17 State.reset).2.data.head?, (takeReadRestrictions 1 State.reset).2.data.length) =
      (some 4, 37) := by decide +kernel

/-- R176: an IDENTIFY to 127 scoped to bogie 2 is served at position 2 alone. -/
theorem test_group_identify_is_served_at_its_position :
    ({ State.reset with ident := ⟨2, 0, 2, 4⟩ } : State).serves (groupOf 2 2) = true ∧
      State.reset.serves (groupOf 2 2) = false := by decide +kernel

/-- R39: without PENALTY_ACK the penalty stays, with it the service level takes effect. -/
theorem test_penalty_needs_acknowledgement :
    let s := { bogie with demand := { bogie.demand with hold := .penalty } }
    after (.demand (head 40) 300 0 0) s (fun t => decide (t.demand.hold = .penalty ∧ t.demand.level = 1000)) = true ∧
      after (.demand (head 40) 300 0 2) s (fun t => decide (t.demand.hold = .none ∧ t.demand.level = 300)) = true := by
  decide +kernel

/-- R10: the fifth selection with FORWARD waiting takes the head of FORWARD. -/
theorem test_fifth_selection_takes_forward :
    let f : Frame := Frame.sealed 0x55 1 2 3 []
    after (.transmissionComplete .a) { State.reset with link := { Link.reset with a := { Port.reset with
        command := [⟨0, ⟨0x20, 9, []⟩⟩], forward := [.forwarded f], fairness := 4, tx := some ⟨f, 0⟩ } } } (fun t =>
      decide (t.link.a.tx = some ⟨f, 9⟩ ∧ t.link.a.fairness = 0 ∧ t.link.a.framesSent = 1 ∧ t.link.seq = 0)) = true := by
  decide +kernel

/-- R171, R156: a request's trigger opens an incident on slot 0 and its MARK record has the trigger's T. -/
theorem test_trigger_opens_an_incident :
    after (.trigger ask 9 [1, 2]) State.reset (fun t =>
      decide (t.hist.capture = .post ∧ (t.slot 0).header.state = .writing ∧ (t.slot 0).header.number = 1 ∧
        t.hist.ring.map (fun r => (r.seq, r.kind)) = [(0, .mode), (1, .mark)])) = true := by decide +kernel

/-! ### Well-formedness refuses -/

theorem test_no_sample_is_ill_formed : WellFormed (.axleSpeed (head 41) []) = false := by decide
theorem test_five_samples_are_ill_formed : WellFormed (.axleSpeed (head 41) (List.replicate 5 ⟨0, 0, 0⟩)) = false := by
  decide
theorem test_long_segment_is_ill_formed : WellFormed (.loadSegment ask 0 (List.replicate 51 0)) = false := by decide
theorem test_long_mark_is_ill_formed : WellFormed (.trigger ask 0 (List.replicate 51 0)) = false := by decide
theorem test_known_code_is_ill_formed : WellFormed (.unknownRequestCode ask 0x31 []) = false := by decide
theorem test_long_parameters_are_ill_formed :
    WellFormed (.unknownRequestCode ask 0x70 (List.replicate 52 0)) = false := by decide

/-! ### Witnesses: states and operands that meet the statements' hypotheses, one theorem for a statement -/

/-- A request is served, as a test. -/
def served (s : State) (h : ReqHead) : Bool :=
  !s.badSource h.src && s.serves h && scopeListed h

theorem served_of {s : State} {h : ReqHead} (e : served s h = true) : s.Served h := by
  simp only [served, Bool.and_eq_true, Bool.not_eq_true'] at e
  exact ⟨e.1.1, e.1.2, e.2⟩

/-- A policed frame is accepted, as a test. -/
def accepted (s : State) (c : Instr) (h : FrameHead) (role : Role) (e : Station) : Bool :=
  decide (policed c = some (h, role) ∧ s.station h.src = some e ∧ e.role = role ∧ e.side = h.port) &&
    carriesWell c e && newerSeq h.seq e.lastSeq

theorem accepted_of {s : State} {c : Instr} {h : FrameHead} {role : Role} {e : Station}
    (x : accepted s c h role e = true) : s.Accepts c h role e := by
  simp only [accepted, Bool.and_eq_true, decide_eq_true_eq] at x
  exact ⟨x.1.1.1, x.1.1.2.1, x.1.1.2.2.1, x.1.1.2.2.2, x.1.2, x.2⟩

/-- A port with its FORWARD queue at fifteen frames, and one at fourteen. -/
def fifteen : Port := { Port.reset with forward := List.replicate 15 (.originated ⟨0x32, 9, []⟩) }
def fourteen : Port := { Port.reset with forward := List.replicate 14 (.originated ⟨0x32, 9, []⟩) }

/-- The bogie with its reply port full but for the reply's place, released, isolated, and before any adoption. -/
def full : State := bogie.putPort .a fifteen
def idle : State := { bogie with demand := { bogie.demand with app := .released, lLast := 0 } }
def slow : State := { idle with slide := { idle.slide with vref := 29 } }
def isolated : State := { idle with demand := { idle.demand with mode := .isolated } }

/-- The bogie in RELEASING with its timer, no effort commanded. -/
def releasing : State := { bogie with
  demand := { bogie.demand with app := .releasing, lLast := 0, releaseTimer := some ⟨900, 1000⟩ } }

/-- A COMPLETE header of a number and a count. -/
def complete (number : BitVec 32) (count : Nat) (guarded : Bool) : Header :=
  { Header.free with number := number, state := .complete, count := count, isProtected := guarded }

def slotOfHeader (h : Header) (ops : List HeaderOp) (erase : Option Nat) : Slot :=
  { Slot.delivered with header := h, nv := h, ops := ops, erase := erase }

/-- The idle bogie with an incident of three records on slot 0, a protected one on slot 15, and a cursor. -/
def stored (c : Option Cursor) : State :=
  let s := (idle.putSlot 0 (slotOfHeader (complete 7 3 false) [] none)).putSlot 15
    (slotOfHeader (complete 8 384 true) [] none)
  s.putCursor c

/-- An incident of two records on slot 3 with an operation in progress. -/
def incident (op : Option CommitOp) (reused : Bool) (buffer : List Record) (claimDone : Bool) : Incident :=
  ⟨3, 7, 0, 1, 1, buffer, [⟨.request, 9, 0⟩], 0, 0, 1, 0, 0, false, false, reused, claimDone, op⟩
def two : List Record := [Record.firstMode, { Record.firstMode with seq := 1 }]
def committing (capture : Capture) (i : Incident) (ops : List HeaderOp) (erase : Option Nat) : State :=
  let s := idle.putSlot 3 (slotOfHeader { Header.free with number := 7, state := .writing } ops erase)
  s.withHist { s.hist with capture := capture, current := some i }
def opOf (kind : HeaderOpKind) : HeaderOp := ⟨kind, complete 7 2 false, 0⟩

/-- The scan at a phase on slot 3. -/
def scanning (ph : ScanPhase) : State := State.reset.withHist { State.reset.hist with scan := some ⟨3, ph, 0⟩ }

def station (s : State) (a : Byte) : Station := (s.station a).getD (fresh 0 .peer [])

theorem witness_IdleStepsRunTheClock :
    (State.reset.pending = [] ∧ State.reset.dueEvents = [] ∧ State.reset.clock.sub + 1 < 200) ∧
    (let s := { State.reset with clock := ⟨9, 199, 0⟩ }
     s.pending = [] ∧ s.dueEvents = [] ∧ 200 ≤ s.clock.sub + 1) ∧
    (let s := State.reset.putPort .a { Port.reset with tx := some ⟨Frame.sealed 0x55 1 2 3 [], 0⟩ }
     s.pending = [] ∧ s.dueEvents = [.transmissionComplete .a]) := by decide +kernel

theorem witness_FrameCommandsAreArrivals :
    (WellFormed (.axleSpeed (head 41) (List.replicate 4 ⟨0, 1, 0⟩)) = true ∧
      frameOf (.axleSpeed (head 41) (List.replicate 4 ⟨0, 1, 0⟩)) ≠ none) ∧
    (WellFormed (.unknownRequestCode ask 0x70 (List.replicate 51 0)) = true ∧
      frameOf (.unknownRequestCode ask 0x70 (List.replicate 51 0)) ≠ none) ∧
    (WellFormed (.trigger ask 0 (List.replicate 50 0)) = true ∧
      frameOf (.trigger ask 0 (List.replicate 50 0)) ≠ none) := by decide +kernel

theorem bogie_ringLaw : bogie.RingLaw where
  size := by decide +kernel
  data := by decide +kernel
  runs
    | 0, _, h => by cases h; decide +kernel
    | _ + 1, _, h => by cases h

theorem bogie_captureLaw : bogie.CaptureLaw := ⟨by decide +kernel, by decide +kernel, by decide +kernel,
  by decide +kernel, by decide +kernel, by decide +kernel, by decide +kernel, by decide +kernel⟩

/-- The law of a ring holds of every state that has the bogie's. -/
theorem ringLaw_of {s : State} (h : s.hist.ring = bogie.hist.ring) (q : s.hist.nextSeq = bogie.hist.nextSeq) :
    s.RingLaw :=
  ⟨by rw [h]; exact bogie_ringLaw.size, by rw [h]; exact bogie_ringLaw.data, by rw [h, q]; exact bogie_ringLaw.runs⟩

theorem witness_StepKeepsTheRingLinkGoverningAndConditionLaws : (bogie.RingLaw ∧ ∃ t, step bogie = .next t) ∧
    (full.LinkLaw ∧ ∃ t, step full = .next t) ∧
    ((derated bogie).GoverningLaw ∧ ∃ t, step (derated bogie) = .next t) ∧
    ((derated bogie).StationLaw ∧ (derated bogie).ConditionLaw ∧ ((derated bogie).entry 9).condition = true) := by
  refine ⟨⟨bogie_ringLaw, _, rfl⟩, ⟨⟨fun p => ?_, fun m => absurd (by decide +kernel) m⟩, _, rfl⟩,
    ⟨⟨by decide +kernel, ⟨by decide +kernel, by decide +kernel, by decide +kernel⟩,
      ⟨by decide +kernel, by decide +kernel, by decide +kernel⟩⟩, _, rfl⟩,
    ⟨by decide +kernel, by decide +kernel, by decide +kernel,
      (by unfold Station.Apart; decide +kernel : ∀ x ∈ bogie.cls.stations, ∀ y ∈ bogie.cls.stations,
        x.address ≠ y.address → x.Apart y)⟩,
    (conditionLaw_iff _).mpr ⟨by decide +kernel, fun m => absurd rfl m⟩, by decide +kernel⟩
  cases p
  · exact ⟨by decide +kernel, by decide +kernel, by decide +kernel, by decide +kernel, by decide +kernel⟩
  · exact ⟨by decide +kernel, by decide +kernel, by decide +kernel, by decide +kernel, by decide +kernel⟩

/-- The bogie with one own axle in every slide state but CLEAR of its law. -/
def sliding : State := { bogie with slide := { bogie.slide with axles := ⟨[
  { SlideRecord.reset with state := .sliding, factor := 400, allowance := some ⟨0, 3000⟩ },
  { SlideRecord.reset with state := .suspect, suspect := 1 },
  { SlideRecord.reset with state := .unsensed, factor := 0 }], rfl⟩ } }

theorem law_of {r : SlideRecord} (f : decide ((r.state = .clear ∨ r.state = .suspect → r.factor = 1000) ∧
    (r.state = .isolated ∨ r.state = .unsensed → r.factor = 0) ∧ (r.state = .sliding → r.factor ≤ 900) ∧
    (r.state = .recovering → r.factor < 1000) ∧ (r.state = .suspect → 1 ≤ r.suspect ∧ r.suspect ≤ 7) ∧
    (r.state ≠ .suspect → r.suspect = 0) ∧ (r.allowance.isSome = true ↔ r.state = .sliding) ∧
    r.episodeTime ≤ 30000) = true) : r.Law := by
  obtain ⟨a, b, c, d, e, g, h, i⟩ := of_decide_eq_true f
  exact ⟨a, b, c, d, e, g, h, i⟩

theorem tables_inRange (k : Fin 8) : (tables.bands.get k).InRange :=
  ⟨(by decide +kernel : ∀ j, (tables.bands.get j).cut ≤ 900) k,
    (by decide +kernel : ∀ j, (tables.bands.get j).confirm ≤ 8) k⟩

/-- The bogie with entry 5 on the AIR path, forced, its cap the commanded pressure. -/
def capped : State :=
  let s := bogie.putEntry 4 { bogie.entry 4 with
    enable := true, path := .air, priority := 1, action := 100, force := true, pending := true }
  let s1 := s.withRestrict { s.restrict with govAir := 5 }
  { s1 with
    air := { s1.air with pSet := 100 }
    blend := { s1.blend with pressure := { s1.blend.pressure with content := ⟨100, .normal, false⟩ } } }

theorem capped_law : capped.CapLaw := by
  have f : ∀ k : Fin 20, capped.restrict.govAir = k.val + 1 →
      capped.blend.pressure.content.pressure ≤ (capped.entry k).action := by decide +kernel
  exact fun k _ _ _ h => f k h

theorem witness_StepKeepsTheNoticeCaptureSlideAndPressureLaws :
    (let s := bogie.withMgmt { bogie.mgmt with noticeAddress := 9, notices := [⟨.mode, 0, 1, 5⟩] }
     s.NoticeLaw ∧ ∃ t, step s = .next t) ∧
    (let s := committing .committing (incident (some .header) false two true) [opOf .commit] none
     s.CaptureLaw ∧ ∃ t, step s = .next t) ∧
    (sliding.SlideLaw ∧ ∃ t, step sliding = .next t) ∧
    (let s := { held with blend := { held.blend with pressure := { held.blend.pressure with content := ⟨396, .hold, false⟩ } } }
     s.PressureLaw ∧ ∃ t, step s = .next t) ∧
    (let s := capped.withPending [.effortReport (head 43) 0 300 1]
     s.GoverningLaw ∧ s.CapLaw ∧ s.demand.mode = .active ∧ s.restrict.govAir = 5 ∧
       ∃ t, step s = .next t ∧ t.AirIsSettled ∧ t.restrict.govAir = 5) :=
  ⟨⟨⟨by decide +kernel, by decide +kernel, by decide +kernel⟩, _, rfl⟩,
   ⟨⟨by decide +kernel, by decide +kernel, by decide +kernel, by decide +kernel, by decide +kernel, by decide +kernel,
     by decide +kernel, by decide +kernel⟩, _, rfl⟩,
   ⟨⟨fun | 0 => law_of (by decide +kernel) | 1 => law_of (by decide +kernel) | 2 => law_of (by decide +kernel),
     fun _ k h => (by cases h; exact tables_inRange k),
     fun k => ⟨(by decide +kernel : ∀ j, (bogie.banks.staged.bands.get j).cut ≤ 900) k,
       (by decide +kernel : ∀ j, (bogie.banks.staged.bands.get j).confirm ≤ 8) k⟩⟩, _, rfl⟩,
   ⟨⟨by decide +kernel, by decide +kernel, fun _ _ h => (by cases h; decide +kernel),
     fun _ _ h _ => (by cases h; decide +kernel), fun _ _ => rfl, fun h => absurd rfl h,
     fun _ h => (by cases h; exact ⟨by decide, by decide, by decide⟩), by decide +kernel,
     fun h => (by cases h), by decide +kernel⟩, _, rfl⟩,
   ⟨⟨by decide +kernel, ⟨by decide +kernel, by decide +kernel, by decide +kernel⟩,
     ⟨by decide +kernel, by decide +kernel, by decide +kernel⟩⟩, capped_law, rfl, rfl, _, rfl, by decide +kernel,
     by decide +kernel⟩⟩

/-- R104: an evaluation keeps the pressure at the cap of the governing AIR entry, here 100 of 383 kPa. -/
theorem test_cap_bounds_the_output :
    let t := (derated (withOut capped 0 300 435 435)).evaluate false
    t.blend.work.ra = some 100 ∧ 100 < t.blend.work.pAuto ∧ t.blend.work.pSet = 100 ∧
      t.blend.pressure.content = ⟨100, .normal, false⟩ := by decide +kernel

/-- The worked hold after an evaluation: two axles held, the third sliding, the sequencer in DUMP, all outputs sent. -/
def working : State := { held with slide := { held.slide with
  axles := thirdAxle { SlideRecord.reset with state := .sliding, factor := 400, allowance := some ⟨3000, 3000⟩ } } }
  |>.evaluate false

theorem witness_StepKeepsTheStationDumpEffortAndSendLaws :
    (working.StationLaw ∧ working.DumpLaw ∧ working.SlideLaw ∧ working.EffortLaw ∧ working.SendLaw ∧
      ∃ t, step working = .next t) ∧
    working.air.state = .dump ∧ (working.out 0).pendingEffort = some 366 ∧ (working.out 2).content.effort = 146 ∧
    working.demand.mode = .active ∧ working.converterOf 2 ≠ none ∧ working.valve ≠ none :=
  ⟨⟨⟨by decide +kernel, by decide +kernel, by decide +kernel,
      (by unfold Station.Apart; decide +kernel : ∀ x ∈ working.cls.stations, ∀ y ∈ working.cls.stations,
        x.address ≠ y.address → x.Apart y)⟩,
    ⟨by decide +kernel, by decide +kernel, by decide +kernel, by decide +kernel, by decide +kernel, by decide +kernel,
      by decide +kernel, by decide +kernel⟩,
    ⟨fun | 0 => law_of (by decide +kernel) | 1 => law_of (by decide +kernel) | 2 => law_of (by decide +kernel),
      fun b k h => (Option.some.inj ((by decide +kernel : working.banks.active = some tables).symm.trans h)) ▸
        tables_inRange k,
      fun k => ⟨(by decide +kernel : ∀ j, (working.banks.staged.bands.get j).cut ≤ 900) k,
        (by decide +kernel : ∀ j, (working.banks.staged.bands.get j).confirm ≤ 8) k⟩⟩,
    ⟨by decide +kernel, by decide +kernel, by decide +kernel, by decide +kernel, by decide +kernel, by decide +kernel⟩,
    ⟨by decide +kernel, by decide +kernel, by decide +kernel, by decide +kernel, by decide +kernel⟩, _, rfl⟩,
   by decide +kernel⟩

/-- The bogie with sixteen frames queued on the port that requests come on, and a transmission in progress there. -/
def stuffed : State := bogie.putPort .a { Port.reset with
  forward := List.replicate 16 (.originated ⟨0x32, 9, []⟩), tx := some ⟨Frame.sealed 0x55 9 8 7 [], 9⟩ }

/-- A request is served at its own address, and at 127 with its bogie's or its axle's scope, with a place for its reply
up to fifteen frames and with none at sixteen, on which its answer turns; the pages, ports and addresses of the reads are
free (IdentifyAndReadStatusReply, ReadPortAndReadStationReply). -/
theorem witness_Served : full.Served ask ∧ full.Served (groupOf 2 0) ∧ full.Served (groupOf 1 2) ∧ full.Room ask ∧
    stuffed.Served ask ∧ stuffed.Full ask :=
  ⟨served_of (by decide +kernel), served_of (by decide +kernel), served_of (by decide +kernel),
    (by decide +kernel : (full.port .a).forward.length ≤ 15), served_of (by decide +kernel),
    (by decide +kernel : 16 ≤ (stuffed.port .a).forward.length), by decide +kernel⟩

/-- R6: with sixteen frames queued an IDENTIFY has no reply, and the loss is one FORWARD drop. -/
theorem test_reply_without_a_place_is_dropped :
    after (.identify ask) stuffed (fun t => decide ((t.port .a).forwardDrops = 1 ∧
      (t.port .a).forward = (stuffed.port .a).forward)) = true := by decide +kernel

theorem witness_IdentifyAndReadStatusReply : full.Served ask ∧ 1 < (2 : Byte).toNat ∧ 1 < (255 : Byte).toNat :=
  ⟨served_of (by decide +kernel), by decide, by decide⟩

theorem witness_ReadPortAndReadStationReply : full.Served ask ∧ portOfCode 0 = some .a ∧ portOfCode 1 = some .b ∧
    1 < (2 : Byte).toNat ∧ full.station 40 ≠ none ∧ full.station 99 = none :=
  ⟨served_of (by decide +kernel), by decide, by decide, by decide, by decide +kernel, by decide +kernel⟩

theorem witness_ReadAxleAndReadBogieReply :
    bogie.Served (askOf 1 2) ∧ bogie.banks.active = some tables ∧ 2 < tables.bogie.n ∧
    bogie.Served (askOf 1 3) ∧ (∀ i : Fin 3, i.val < bogie.n → (askOf 1 3).scopeNumber.toNat ≠ i.val) ∧
    bogie.Served (askOf 2 0) ∧ bogie.Served (askOf 2 1) ∧ bogie.Served ask :=
  ⟨served_of (by decide +kernel), rfl, by decide, served_of (by decide +kernel), by decide +kernel,
    served_of (by decide +kernel), served_of (by decide +kernel), served_of (by decide +kernel)⟩

theorem witness_ReadTablesReply : bogie.Served ask ∧ (1 ≤ (20 : Byte).toNat ∧ (20 : Byte).toNat ≤ 20) ∧
    20 < (21 : Byte).toNat ∧ bogie.hist.scan = none ∧ 15 < (16 : Byte).toNat ∧ (15 : Byte).toNat = (15 : Fin 16).val ∧
    (scanning .erase).Served ask ∧ (scanning .erase).hist.scan ≠ none :=
  ⟨served_of (by decide +kernel), by decide, by decide, rfl, by decide, rfl, served_of (by decide +kernel), by decide⟩

theorem witness_SetMatchWritesTheEntry : bogie.Served ask ∧ (3 : Byte).toNat = (3 : Fin 4).val ∧
    (126 : Byte).toNat ≤ 126 ∧ (55 : Byte).toNat ≤ 55 ∧ 3 < (4 : Byte).toNat ∧ 126 < (127 : Byte).toNat ∧
    55 < (56 : Byte).toNat := ⟨served_of (by decide +kernel), rfl, by decide, by decide, by decide, by decide, by decide⟩

theorem witness_SetPortWritesThePort : bogie.Served ask ∧ portOfCode 1 = some .b ∧ 1 < (2 : Byte).toNat ∧
    bogie.Room ask ∧ stuffed.Served ask ∧ stuffed.Full ask ∧ portOfCode 0 = some ask.port :=
  ⟨served_of (by decide +kernel), rfl, by decide, (by decide +kernel : (bogie.port .a).forward.length ≤ 15),
    served_of (by decide +kernel), ⟨(by decide +kernel : 16 ≤ (stuffed.port .a).forward.length), by decide +kernel⟩, rfl⟩

/-- The parameters of a PEER entry, and of entries that the steps of R20 refuse in turn. -/
def peer (address : Byte) : StationParams := ⟨address, 5, 1, 0, 0, 0, 0, 0, 100, 0⟩

theorem witness_SetStationWritesTheEntry :
    bogie.Served ask ∧ (peer 127).entry bogie.nodeByte bogie.clock.time = none ∧
    (peer 126).entry bogie.nodeByte bogie.clock.time ≠ none ∧ bogie.demand.mode = .active ∧
    bogie.demand.app ≠ .released ∧ idle.Served ask ∧
    (({ peer 48 with role := 0 } : StationParams).entry idle.nodeByte idle.clock.time).any idle.breaksBinding = true ∧
    ((peer 47).entry idle.nodeByte idle.clock.time).any idle.breaksBinding = false ∧ idle.station 47 ≠ none ∧
    (let s := { idle with cls := { idle.cls with stations := List.replicate 32 (fresh 47 .peer []) } }
     s.Served ask ∧ s.station 126 = none ∧ 32 ≤ s.cls.stations.length ∧
        ((peer 126).entry s.nodeByte s.clock.time).any s.breaksBinding = false) :=
  ⟨served_of (by decide +kernel), by decide +kernel, by decide +kernel, rfl, by decide, served_of (by decide +kernel),
    by decide +kernel, by decide +kernel, by decide +kernel, served_of (by decide +kernel), by decide +kernel,
    by decide +kernel, by decide +kernel⟩

theorem witness_ClearStationRemovesTheEntry : bogie.Served ask ∧ bogie.demand.mode = .active ∧
    bogie.demand.app ≠ .released ∧ idle.Served ask ∧ idle.station 99 = none ∧ idle.station 40 ≠ none :=
  ⟨served_of (by decide +kernel), rfl, by decide, served_of (by decide +kernel), by decide +kernel, by decide +kernel⟩

/-- An edit of an entry is taken: the entry is well formed and breaks no binding rule, and its address is written. -/
def takesEdit (s : State) (x : StationParams) : Bool :=
  (x.entry s.nodeByte s.clock.time).any (fun e => !s.breaksBinding e) && (s.station x.address).isSome

/-- In ACTIVE mode and RELEASED each kind of entry that another block depends on can be written, its targets bound by the
old entry alone, by both, or by the new one alone, and each can be removed; the CAB entry under a PENALTY too, and while the
release is not confirmed in another mode (SetStationWritesTheEntry, ClearStationRemovesTheEntry). -/
theorem witness_edits : idle.Served ask ∧ idle.RingLaw ∧ idle.demand.mode = .active ∧ idle.demand.app = .released ∧
    takesEdit idle ⟨40, 0, 1, 0, 0, 0, 0, 0, 100, 0⟩ ∧ takesEdit idle ⟨41, 1, 1, 2, 1, 3, 0, 0, 100, 0⟩ ∧
    takesEdit idle ⟨43, 3, 0, 1, 0, 0, 0, 0, 100, 0⟩ ∧ takesEdit idle ⟨46, 4, 0, 1, 1, 0, 0, 0, 100, 0⟩ ∧
    idle.converterOf 2 = some (station idle 45) ∧ idle.valve = some (fresh 46 .valve [0]) ∧
    (idle.axle 0).state = .clear ∧ 0 < idle.n ∧ idle.demand.hold ≠ .penalty ∧
    (let s := { idle with demand := { idle.demand with hold := .penalty } }
     s.Served ask ∧ takesEdit s ⟨40, 0, 1, 0, 0, 0, 0, 0, 100, 0⟩) ∧
    (let s := { releasing with demand := { releasing.demand with mode := .isolated } }
     s.Served ask ∧ s.RingLaw ∧ takesEdit s ⟨40, 0, 1, 0, 0, 0, 0, 0, 100, 0⟩ ∧ s.demand.app = .releasing) :=
  ⟨served_of (by decide +kernel), ringLaw_of rfl rfl, rfl, rfl, by decide +kernel, by decide +kernel,
    by decide +kernel, by decide +kernel, by decide +kernel, by decide +kernel, by decide +kernel, by decide +kernel,
    by decide, ⟨served_of (by decide +kernel), by decide +kernel⟩,
    ⟨served_of (by decide +kernel), ringLaw_of rfl rfl, by decide +kernel, rfl⟩⟩

/-- R22, R96, R113: removing the converter of axle 0 in ACTIVE mode leaves its output with nothing sent and an achieved
effort of 0, and its effort, out of service, 0. -/
theorem test_removed_converter_leaves_nothing_sent :
    let s := { withOut idle 0 300 435 0 with demand := { idle.demand with lLast := 0 } }
    after (.clearStation ask 43) s (fun t => decide ((t.out 0).achieved = 0 ∧ (t.out 0).lastSent = none ∧
      (t.out 0).refresh = none ∧ (t.out 0).content.effort = 0 ∧ (t.entry 8).condition = true)) = true := by
  decide +kernel

theorem witness_RestoreAxleReturnsIt :
    bogie.Served (askOf 1 3) ∧ bogie.scopeAxle (askOf 1 3) = none ∧ bogie.Served (askOf 1 2) ∧
    bogie.scopeAxle (askOf 1 2) = some 2 ∧ bogie.demand.app ≠ .released ∧ idle.demand.app = .released ∧
    (idle.axle 2).state ≠ .isolated ∧
    (let s := idle.putAxle 2 { SlideRecord.reset with state := .isolated, factor := 0 }
     s.Served (askOf 1 2) ∧ (s.axle 2).state = .isolated ∧ (s.ownSample 2).state = .stale ∧
        s.demand.mode = .active ∧ s.RingLaw) :=
  ⟨served_of (by decide +kernel), by decide +kernel, served_of (by decide +kernel), by decide +kernel, by decide, rfl,
    by decide +kernel, served_of (by decide +kernel), by decide +kernel, by decide +kernel, rfl, ringLaw_of rfl rfl⟩

theorem witness_SetRestrictionWritesSelectedFields : bogie.Served ask ∧ bogie.RingLaw ∧ (20 : Byte).toNat = (19 : Fin 20).val + 1 ∧
    20 < (21 : Byte).toNat ∧ ((8 : Byte).getLsbD 3 = true ∧ 2 < (3 : Byte).toNat) ∧
    ((64 : Byte).getLsbD 6 = true ∧ 3 < (4 : Byte).toNat) ∧ (255 : Byte).getLsbD 3 = true ∧ ¬2 < (2 : Byte).toNat :=
  ⟨served_of (by decide +kernel), bogie_ringLaw, rfl, by decide, by decide, by decide, by decide, by decide⟩

theorem witness_AcknowledgementsAndLimitersAreTaken : bogie.Served ask ∧ (1 : BitVec 32).getLsbD 0 = true ∧
    2 ^ 21 ≤ (0x200000 : BitVec 32).toNat ∧ (0x1FFFFE : BitVec 32).getLsbD 0 = false ∧
    (0x1FFFFE : BitVec 32).toNat < 2 ^ 21 ∧ 1 < (2 : Byte).toNat :=
  ⟨served_of (by decide +kernel), by decide, by decide, by decide, by decide, by decide⟩

theorem witness_SetModeChangesTheMode :
    State.reset.Served ask ∧ State.reset.demand.mode = .transparent ∧ bogie.Served ask ∧ bogie.demand.mode = .active ∧
    ¬(bogie.demand.app = .released ∧ bogie.slide.vref < bogie.vMin) ∧ slow.Served ask ∧ slow.demand.mode = .active ∧
    slow.demand.app = .released ∧ slow.slide.vref < slow.vMin ∧ isolated.Served ask ∧
    isolated.demand.mode = .isolated :=
  ⟨served_of (by decide +kernel), rfl, served_of (by decide +kernel), rfl, by decide +kernel,
    served_of (by decide +kernel), rfl, rfl, by decide +kernel, served_of (by decide +kernel), rfl⟩

/-- On leaving ACTIVE and on entering it: an axle that is not CLEAR, one with a STALE sample, a notice address, nothing sent
before the entry (SetModeChangesTheMode). -/
theorem witness_SetModeHandsOn :
    (let s := (slow.putAxle 2 { SlideRecord.reset with state := .suspect, suspect := 1 }).withMgmt
       { slow.mgmt with noticeAddress := 9 }
     s.Served ask ∧ s.RingLaw ∧ (s.axle 2).state ≠ .clear ∧ s.mgmt.noticeAddress ≠ 0 ∧ s.mgmt.enables.mode = true ∧
       s.demand.mode = .active ∧ s.demand.app = .released ∧ s.slide.vref < s.vMin) ∧
    (let s := isolated.withMgmt { isolated.mgmt with noticeAddress := 9 }
     s.Served ask ∧ s.RingLaw ∧ s.SendLaw ∧ 2 < s.n ∧ (s.ownSample 2).state = .stale ∧ (s.axle 2).state = .clear ∧
       s.banks.active = some tables ∧ s.converterOf 2 ≠ none ∧ s.valve ≠ none ∧ s.mgmt.noticeAddress ≠ 0) :=
  ⟨⟨served_of (by decide +kernel), ringLaw_of rfl rfl, by decide +kernel, by decide +kernel, rfl, rfl, rfl,
      by decide +kernel⟩,
    served_of (by decide +kernel), ringLaw_of rfl rfl,
    ⟨by decide +kernel, by decide +kernel, by decide +kernel, by decide +kernel, by decide +kernel⟩, by decide +kernel,
    by decide +kernel, by decide +kernel, rfl, by decide +kernel, by decide +kernel, by decide +kernel⟩

/-- R51, section 11.4: leaving ACTIVE puts the outputs to 0 and writes a MODE record of form 1, ACTIVE to ISOLATED, mode
ISOLATED, RELEASED, number 1, no cause. -/
theorem test_leaving_active_withdraws_the_outputs :
    after (.setMode ask 2) (withOut slow 0 300 435 0) (fun t => decide ((t.out 0).content.effort = 0 ∧
      (t.hist.ring.getLast?).map (fun r => (r.kind, r.data)) =
        some (.mode, [1, 1, 2, 2, 0, 0, 0, 0, 1, 0, 0, 0, 0, 0]))) = true := by decide +kernel

theorem witness_SetNoticeWritesTheSettings : bogie.Served ask ∧ 126 < (127 : Byte).toNat ∧ (4 : Byte) = bogie.nodeByte ∧
    15 < (16 : Byte).toNat ∧ (126 : Byte).toNat ≤ 126 ∧ (126 : Byte) ≠ bogie.nodeByte ∧ (15 : Byte).toNat ≤ 15 :=
  ⟨served_of (by decide +kernel), by decide, by decide +kernel, by decide, by decide, by decide +kernel, by decide⟩

theorem witness_RestartResetsWorkingState : bogie.Served ask ∧ bogie.demand.app ≠ .released ∧ idle.Served ask ∧
    idle.demand.app = .released ∧
    (let s := committing .post (incident none true two true) [] none
     s.Served ask ∧ (s.finds ask 0x05 []).hist.capture = .post ∧
       (s.finds ask 0x05 []).hist.current = some (incident none true two true)) ∧
    (let s := idle.putPort .a { Port.reset with tx := some ⟨Frame.sealed 1 2 3 4 [], 9⟩ }
     s.Served ask ∧ (s.port .a).tx ≠ none) :=
  ⟨served_of (by decide +kernel), by decide, served_of (by decide +kernel), rfl,
    ⟨served_of (by decide +kernel), by decide +kernel, by decide +kernel⟩, served_of (by decide +kernel), by decide⟩

/-- A RESTART that raises the radar's entry, the UNSENSED aggregate and its inverted edge, and enters ACTIVE from another
mode with a notice address (RestartResetsWorkingState). -/
theorem witness_RestartHandsOn :
    (let s := (isolated.putEntry 5 { isolated.entry 5 with invert := true }).withMgmt
       { isolated.mgmt with noticeAddress := 9, notices := [⟨.incident, 0, 1, 5⟩] }
     s.Served ask ∧ s.RingLaw ∧ s.demand.app = .released ∧ s.demand.mode ≠ .active ∧ s.banks.active = some tables ∧
       0 < s.n ∧ (∃ e, s.stationOfRole .radar = some e) ∧ (s.entry 5).enable = true ∧ (s.entry 5).edge ≠ .none ∧
       s.mgmt.noticeAddress ≠ 0 ∧ s.mgmt.enables.mode = true) ∧
    (let s := { State.reset with demand := { State.reset.demand with app := .released } }
     s.Served ask ∧ s.banks.active = none ∧ s.demand.app = .released) :=
  ⟨⟨served_of (by decide +kernel), ringLaw_of rfl rfl, rfl, by decide, rfl, by decide +kernel,
      ⟨fresh 42 .radar [], by decide +kernel⟩, by decide +kernel, by decide +kernel, by decide +kernel, rfl⟩,
    served_of (by decide +kernel), rfl, rfl⟩

/-- R135, R13: after RESTART in ISOLATED mode with an active bank, entry 6, its invert kept, has fallen at the entry to
ACTIVE, entry 9 is pending, no notice of before is left, and both silence timers run from now for T_port_silent. -/
theorem test_restart_hands_the_conditions_over :
    let s := (isolated.putEntry 5 { isolated.entry 5 with invert := true, edge := .both }).withMgmt
      { isolated.mgmt with notices := [⟨.incident, 0, 1, 5⟩] }
    after (.restart ask) s (fun t => decide ((t.entry 5).condition = true ∧ (t.entry 5).pending = false ∧
      (t.entry 5).latched = true ∧ (t.entry 8).pending = true ∧ t.mgmt.notices = [] ∧
      t.link.a.silenceTimer = some ⟨1000, 500⟩ ∧ t.link.b.silenceTimer = some ⟨1000, 500⟩)) = true := by decide +kernel

theorem witness_LoadSegmentFillsTheStagedTable :
    let loading := { bogie with banks := { bogie.banks with openLoad := some .curve } }
    bogie.Served ask ∧ 3 < (0x40 : Byte).toNat / 16 ∧ selectedTable 0x12 = some .bogie ∧
    TableId.bogie.segments ≤ (0x12 : Byte).toNat % 16 ∧ selectedTable 0x30 = some .supervision ∧
    (List.replicate 28 (0 : Byte)).length = TableId.supervision.segmentBytes 0 ∧ loading.Served ask ∧
    loading.banks.openLoad = some .curve ∧ selectedTable 0x01 = some .curve ∧
    (List.replicate 32 (0 : Byte)).length = TableId.curve.segmentBytes 1 ∧ bogie.banks.openLoad ≠ some .curve :=
  ⟨served_of (by decide +kernel), by decide, by decide, by decide, by decide, by decide, served_of (by decide +kernel),
    rfl, by decide, by decide, by decide⟩

/-- Four valid tables staged. -/
def stagedAll (s : State) : State := { s with banks := { s.banks with
  staged := tables, states := ⟨.loaded, .loaded, .loaded, .loaded⟩ } }

theorem witness_AdoptTakesTheStagedTables :
    (let s := { idle with banks := { idle.banks with states := ⟨.untouched, .loading, .untouched, .untouched⟩ } }
     s.Served ask ∧ s.banks.cancelLoad.notReady = some .bogie) ∧
    (State.reset.Served ask ∧ State.reset.banks.cancelLoad.notReady = none ∧
      State.reset.banks.cancelLoad.notComplete = some .curve) ∧
    (idle.Served ask ∧ idle.banks.cancelLoad.notReady = none ∧ idle.banks.cancelLoad.notComplete = none ∧
      idle.banks.cancelLoad.nothingStaged = true) ∧
    (let s := { stagedAll idle with banks := { (stagedAll idle).banks with
        staged := { tables with bogie := { tables.bogie with pBase := 600 } } } }
     s.Served ask ∧ s.banks.cancelLoad.notReady = none ∧ s.banks.cancelLoad.notComplete = none ∧
     s.banks.cancelLoad.nothingStaged = false ∧ s.banks.cancelLoad.validate = some ⟨.baseOrder, .bogie, none⟩) ∧
    ((stagedAll bogie).Served ask ∧ (stagedAll bogie).banks.cancelLoad.nothingStaged = false ∧
      (stagedAll bogie).banks.cancelLoad.validate = none ∧ (stagedAll bogie).demand.app ≠ .released) ∧
    ((stagedAll idle).Served ask ∧ (stagedAll idle).banks.cancelLoad.notReady = none ∧
      (stagedAll idle).banks.cancelLoad.notComplete = none ∧ (stagedAll idle).banks.cancelLoad.validate = none ∧
      (stagedAll idle).demand.app = .released) :=
  ⟨⟨served_of (by decide +kernel), by decide +kernel⟩, ⟨served_of (by decide +kernel), by decide +kernel, by decide +kernel⟩,
   ⟨served_of (by decide +kernel), by decide +kernel, by decide +kernel, by decide +kernel⟩,
   ⟨served_of (by decide +kernel), by decide +kernel, by decide +kernel, by decide +kernel, by decide +kernel⟩,
   ⟨served_of (by decide +kernel), by decide +kernel, by decide +kernel, by decide⟩,
   ⟨served_of (by decide +kernel), by decide +kernel, by decide +kernel, by decide +kernel, rfl⟩⟩

theorem witness_DiscardStagedClearsTheStagedBank : (stagedAll bogie).Served ask := served_of (by decide +kernel)

theorem witness_SetRecorderWritesTheConfiguration :
    bogie.Served ask ∧ 1 < (2 : Byte).toNat ∧ (1 : Byte).toNat ≤ 1 ∧ bogie.hist.scan = none ∧
    (let u := bogie.finds ask 0x38 [1, 0, 1, 0, 1, 1]
     u.hist.capture = .idle ∧ u.hist.queue = []) ∧
    (scanning .erase).Served ask ∧ (scanning .erase).hist.scan ≠ none :=
  ⟨served_of (by decide +kernel), by decide, by decide, rfl, by decide +kernel, served_of (by decide +kernel), by decide⟩

theorem witness_CursorsReadTheRecords :
    (scanning .erase).Served ask ∧ (scanning .erase).hist.scan ≠ none ∧ (stored none).Served ask ∧
    (stored none).hist.scan = none ∧ 15 < (16 : Byte).toNat ∧
    ((stored none).finds ask 0x3A [15, 1, 127]).hist.cursor = none ∧
    (((stored none).finds ask 0x3A [15, 1, 127]).slot 15).header.state = .complete ∧
    (383 : BitVec 16).toNat < (((stored none).finds ask 0x3A [15, 1, 127]).slot 15).header.count ∧
    (((stored none).finds ask 0x3A [1, 0, 0]).slot 1).header.state = .free ∧
    (∀ j : Fin 3, ((stored (some ⟨0, j.val, false⟩)).finds ask 0x3B []).hist.cursor = some ⟨0, j.val, false⟩ ∧
      (((stored (some ⟨0, j.val, false⟩)).finds ask 0x3B []).slot 0).header.count = 3) ∧
    ((stored (some ⟨0, 2, true⟩)).finds ask 0x3B []).hist.cursor = some ⟨0, 2, true⟩ :=
  ⟨served_of (by decide +kernel), by decide, served_of (by decide +kernel), by decide +kernel, by decide,
    by decide +kernel, by decide +kernel, by decide +kernel, by decide +kernel, by decide +kernel, by decide +kernel⟩

theorem witness_ProtectWritesTheFlag : (stored none).Served ask ∧ (stored none).hist.scan = none ∧
    (((stored none).finds ask 0x3C [0]).slot 0).header.state = .complete ∧
    (((stored none).finds ask 0x3C [0]).slot 0).header.isProtected ≠ true ∧
    (((stored none).finds ask 0x3D [15]).slot 15).header.isProtected ≠ false ∧
    (((stored none).finds ask 0x3C [1]).slot 1).header.state = .free ∧ 15 < (16 : Byte).toNat ∧
    (scanning .erase).Served ask ∧ (scanning .erase).hist.scan ≠ none :=
  ⟨served_of (by decide +kernel), by decide +kernel, by decide +kernel, by decide +kernel, by decide +kernel,
    by decide +kernel, by decide, served_of (by decide +kernel), by decide⟩

theorem witness_EraseIncidentStartsTheErase : (stored none).Served ask ∧ (stored none).hist.scan = none ∧
    (((stored none).finds ask 0x3E [0]).slot 0).header.state = .complete ∧
    (((stored none).finds ask 0x3E [0]).slot 0).header.isProtected = false ∧
    (((stored none).finds ask 0x3E [15]).slot 15).header.isProtected = true ∧ 15 < (16 : Byte).toNat ∧
    (((stored none).finds ask 0x3E [0]).slot 0).ops = [] ∧
    (let s := (stored none).putSlot 0 (slotOfHeader (complete 7 3 false) [opOf .guard] none)
     ((s.finds ask 0x3E [0]).slot 0).ops ≠ []) ∧
    (scanning .erase).Served ask ∧ (scanning .erase).hist.scan ≠ none :=
  ⟨served_of (by decide +kernel), by decide +kernel, by decide +kernel, by decide +kernel, by decide +kernel,
    by decide, by decide +kernel, by decide +kernel, served_of (by decide +kernel), by decide⟩

theorem witness_TriggerWritesAMarkRecord :
    bogie.Served ask ∧ bogie.CaptureLaw ∧ bogie.RingLaw ∧ (List.replicate 12 (0 : Byte)).length ≤ 12 ∧
      12 < (List.replicate 13 (0 : Byte)).length :=
  ⟨served_of (by decide +kernel), bogie_captureLaw, bogie_ringLaw, by decide, by decide⟩

/-- The bogie with every slot COMPLETE, protected or not, under a slot policy. -/
def filled (guarded : Bool) (policy : Policy) : State :=
  let s := allSlots.foldl (fun (s : State) k =>
    s.putSlot k (slotOfHeader (complete (BitVec.ofNat 32 (20 - k.val)) 3 guarded) [] none)) idle
  s.withHist { s.hist with policy := policy }

/-- A trigger finds a FREE slot, one to overwrite, none that is unprotected and none under STOP_WHEN_FULL; an incident in
POST with room in its list and without; a queue with room and a full one, in COMMITTING and during the scan (State.Triggers,
of TriggerWritesAMarkRecord and PassingFramesAreForwarded). -/
theorem witness_Triggers : bogie.hist.scan = none ∧ bogie.hist.capture = .idle ∧ bogie.Claimable 0 ∧
    bogie.RingLaw ∧ bogie.hist.pre + bogie.hist.post ≤ 512 ∧ bogie.hist.ring.length < bogie.hist.pre ∧
    (filled false .overwriteOldest).Claimable 15 ∧ ((filled false .overwriteOldest).slot 15).header.state ≠ .free ∧
    (∀ k, ¬(filled true .overwriteOldest).Claimable k) ∧ (∀ k, ¬(filled false .stopWhenFull).Claimable k) ∧
    (let s := committing .post (incident none true two true) [] none
     s.hist.scan = none ∧ s.hist.capture = .post ∧ (incident none true two true).triggers.length < 4) ∧
    4 ≤ { incident none true two true with triggers := List.replicate 4 ⟨.request, 9, 0⟩ }.triggers.length ∧
    (let s := committing .committing (incident none true two true) [] none
     s.hist.capture = .committing ∧ s.hist.queue.length < 4) ∧
    (let s := (scanning .erase).withHist { (scanning .erase).hist with
      queue := List.replicate 4 ⟨.request, 1, 0, 0⟩ }
     s.hist.scan ≠ none ∧ 4 ≤ s.hist.queue.length) := by
  refine ⟨rfl, rfl, .inl (by decide +kernel), bogie_ringLaw, by decide +kernel, by decide +kernel,
    .inr (by decide +kernel), by decide +kernel, ?_, ?_, by decide +kernel⟩ <;>
    (unfold State.Claimable; decide +kernel)

/-- R157, R158: with every slot COMPLETE the incident takes the lowest number's slot, 15, and the next free number, 1; the
ring holds one record of the 128 asked for, so the window starts with it, PRE_TRUNCATED, and the MARK record follows. -/
theorem test_incident_takes_its_window :
    after (.trigger ask 9 [1, 2]) (filled false .overwriteOldest) (fun t =>
      (t.hist.current).any (fun i => decide (i.slot = 15 ∧ i.number = 1 ∧ i.firstSeq = 0 ∧ i.preTruncated = true ∧
        i.buffer.map (fun r => r.seq) = [0, 1] ∧ (t.slot 15).header.state = .writing ∧
        (t.slot 15).header.triggers = [⟨.request, 9, some 1⟩]))) = true := by decide +kernel

theorem witness_UnknownCodesLengthsAndScopesAreRefused :
    (WrongLength 0x18 (List.replicate 11 0) ∧ WrongLength 0x05 [0] ∧ WrongLength 0x04 [0] ∧ WrongLength 0x30 [] ∧
      WrongLength 0x3F [] ∧ WrongLength 0x3F (List.replicate 14 0) ∧ ¬WrongLength 0x3F (List.replicate 13 0)) ∧
    (requestOf (.unknownRequestCode ask 0x70 []) = some (ask, 0x70, []) ∧ bogie.badSource ask.src = false ∧
      bogie.serves ask = true) ∧
    (requestOf (.restart (askOf 3 0)) = some (askOf 3 0, 0x05, []) ∧ bogie.serves (askOf 3 0) = true ∧
      2 < (askOf 3 0).scopeKind.toNat) ∧
    requestOf (.loadSegment (askOf 3 0) 0x01 []) = some (askOf 3 0, 0x30, [0x01]) ∧
    (let s := { bogie with banks := { bogie.banks with openLoad := some .curve } }
     loadContinues 0x01 s = true ∧ loadContinues 0x00 s = false) :=
  ⟨⟨.inl ⟨12, by decide, by decide⟩, .inl ⟨0, by decide, by decide⟩, .inl ⟨2, by decide, by decide⟩,
    .inr (.inl ⟨rfl, rfl⟩), .inr (.inr ⟨rfl, .inl rfl⟩), .inr (.inr ⟨rfl, .inr (by decide)⟩), fun h => by
      rcases h with ⟨n, h, _⟩ | h | h
      · exact absurd h (by simp [paramLengths])
      · exact absurd h.1 (by decide)
      · exact absurd h.2 (by decide)⟩, by decide +kernel⟩

/-- R177, step 2: a SET_NOTICE of one parameter byte is answered INVALID with its code and tag alone. -/
theorem test_wrong_length_is_invalid :
    after (.frameArrival .a (requestFrame ask 0x04 [9]).bytes) bogie (fun t =>
      decide ((t.port .a).tx.map (fun x => x.frame.payload) = some [4, 0, 7, 3] ∧ t.mgmt.noticeAddress = 0)) = true := by
  decide +kernel

theorem witness_UnservedRequestsHaveNoEffect :
    (ask.dest = bogie.nodeByte ∧ ({ ask with src := 127 } : ReqHead).src = 127) ∧
    (groupOf 2 1).dest = 127 ∧ ¬(ask.src = 0 ∨ ask.src = 127 ∨ ask.src = bogie.nodeByte) ∧
    bogie.serves (groupOf 2 1) = false ∧ ¬((126 : Byte) = bogie.nodeByte ∨ (126 : Byte) = 127) ∧
    (let f := Frame.sealed kindRequest 127 9 1 [1, 0, 0, 0]
     checkArrival f.bytes = .frame f ∧ f.kind = kindRequest ∧ f.payload.length < 5) := by decide +kernel

/-! ### Witnesses: frames -/

/-- The bytes of a frame with seven zero bytes of payload, and the same with a wrong CRC. -/
def good : List Byte := (Frame.sealed 0x55 9 8 7 (List.replicate 56 0)).bytes

theorem witness_PortChecksCountRejects :
    (List.replicate 6 (0 : Byte)).length < 7 ∧ 63 < (List.replicate 64 (0 : Byte)).length ∧
    (good.length = 63 ∧ good.length = (good.getD 4 0).toNat + 7 ∧ (good.getD 4 0).toNat ≤ 56 ∧
      crc16 (good.take (good.length - 2)) = readWord (good.getD (good.length - 2) 0) (good.getD (good.length - 1) 0)) ∧
    (let bad := good.take 62 ++ [good.getD 62 0 + 1]
     7 ≤ bad.length ∧ bad.length ≤ 63 ∧
     crc16 (bad.take (bad.length - 2)) ≠ readWord (bad.getD (bad.length - 2) 0) (bad.getD (bad.length - 1) 0)) ∧
    (let body : List Byte := [0x55, 9, 8, 7, 57]
     let long := body ++ be16 (crc16 body).toNat
     crc16 (long.take (long.length - 2)) = readWord (long.getD (long.length - 2) 0) (long.getD (long.length - 1) 0) ∧
        56 < (long.getD 4 0).toNat) := by decide +kernel

/-- The bogie with a number of frames queued on port B, which transmits. -/
def crowded (n : Nat) : State := bogie.putPort .b { Port.reset with
  forward := List.replicate n (.originated ⟨0x32, 9, []⟩), tx := some ⟨Frame.sealed 0x55 9 8 7 [], 9⟩ }

/-- A frame of no known kind, and a RESTART addressed to another node; the match entry meets both its frames. -/
theorem witness_PassingFramesAreForwarded :
    let f := Frame.sealed 0x55 9 8 7 [1]
    let r := Frame.sealed kindRequest 9 8 7 [5, 0, 0, 0, 0]
    let s := bogie.putPort .b fourteen
    let m : MatchEntry := ⟨true, 0x55, 0, 0, 1, 255⟩
    bogie.RingLaw ∧ checkArrival f.bytes = .frame f ∧ f.kind ≠ kindRequest ∧ s.mgmt.noticeSide = .a ∧
      (s.port (otherPort .a)).forward.length ≤ 14 ∧ f.dest ≠ s.nodeByte ∧ s.banks.pendingAdoption = false ∧
      m.meets f ∧ ¬(bogie.cls.matchers.get 0).meets f ∧ s.mgmt.noticeAddress = 0 ∧ s.mgmt.notices = [] ∧
      checkArrival r.bytes = .frame r ∧ r.kind = kindRequest ∧ ¬(r.dest = s.nodeByte ∨ r.dest = 127) ∧
      r.payload.getD 0 0 ≠ 0x31 ∧
      ((crowded 15).port (otherPort .a)).tx ≠ none ∧ 15 ≤ ((crowded 15).port (otherPort .a)).forward.length ∧
      15 ≤ ((crowded 16).port (otherPort .a)).forward.length := by
  exact ⟨bogie_ringLaw, by decide +kernel⟩

/-- R6: the place kept for replies is not given to a forwarded frame. -/
theorem test_fifteen_queued_refuse_a_forwarded_frame :
    after (.frameArrival .a (Frame.sealed 0x55 9 8 7 []).bytes) (crowded 15) (fun t =>
      decide ((t.port .b).forwardDrops = 1 ∧ (t.port .b).forward.length = 15)) = true := by decide +kernel

theorem witness_RefusedFramesAreCounted :
    (policed (.demand (head 99) 0 0 0) = some (head 99, .cab) ∧ bogie.station (head 99).src = none) ∧
    (∃ e, policed (.groundSpeed (head 40) 0 0) = some (head 40, .radar) ∧ bogie.station 40 = some e ∧
      ¬(e.role = .radar)) ∧
    (∃ e, bogie.station 40 = some e ∧ carriesWell (.demand (head 40) 0 0 4) e = false) ∧
    (∃ e, (bogie.mapStation 40 (fun x => { x with lastSeq := some 1 })).station 40 = some e ∧ e.role = .cab ∧
      e.side = (head 40).port ∧ carriesWell (.demand (head 40) 0 0 3) e = true ∧ newerSeq 1 e.lastSeq = false) ∧
    (let short := Frame.sealed kindDemand 9 40 1 [0, 0, 0, 0]
     let long := Frame.sealed kindAxleSpeed 9 99 1 (List.replicate 20 0)
     checkArrival short.bytes = .frame short ∧ short.Misformed ∧ bogie.station short.src ≠ none ∧
       checkArrival long.bytes = .frame long ∧ long.Misformed ∧ bogie.station long.src = none) :=
  ⟨by decide +kernel, ⟨fresh 40 .cab [], by decide +kernel⟩, ⟨fresh 40 .cab [], by decide +kernel⟩,
   ⟨{ fresh 40 .cab [] with lastSeq := some 1 }, by decide +kernel⟩,
   by decide +kernel, .inl (by decide +kernel), by decide +kernel, by decide +kernel,
   .inr (.inl (by decide +kernel)), by decide +kernel⟩

theorem witness_SequencesAreJudgedByTheirLead :
    policed (.pressureReport (head 46) 0 0 1) = some (head 46, .valve) ∧
    bogie.station 46 = some (fresh 46 .valve [0]) ∧ carriesWell (.pressureReport (head 46) 0 0 1) (fresh 46 .valve [0]) ∧
    ((1 : Byte) - 0).toNat = 1 ∧ ((1 : Byte) - 255).toNat = 2 ∧ ((1 : Byte) - 130).toNat = 127 ∧
    ((1 : Byte) - 129).toNat = 128 ∧ ((1 : Byte) - 1).toNat = 0 ∧
    (let f := Frame.sealed 0x55 9 47 1 []
     checkArrival f.bytes = .frame f ∧
       f.kind ∉ [kindDemand, kindAxleSpeed, kindGroundSpeed, kindEffortReport, kindPressureReport, kindRequest] ∧
       bogie.station f.src = some (fresh 47 .peer []) ∧ (fresh 47 .peer []).role = .peer ∧
       bogie.station 40 = some (fresh 40 .cab []) ∧ (fresh 40 .cab []).role ≠ .peer) := by decide +kernel

/-- The levels, latch and hold of this statement are free, and so are the application states and modes. -/
theorem witness_DemandIsTaken :
    bogie.Accepts (.demand (head 40) 0 0 0) (head 40) .cab (fresh 40 .cab []) ∧
    isolated.Accepts (.demand (head 40) 65535 65535 3) (head 40) .cab (fresh 40 .cab []) ∧
    bogie.demand.app = .applied ∧ bogie.demand.mode = .active ∧ isolated.demand.mode ≠ .active :=
  ⟨accepted_of (by decide +kernel), accepted_of (by decide +kernel), rfl, rfl, by decide⟩

/-- The records and the trigger of a DEMAND: the ring's and the capture law, a latch that is clear, a flag that sets it, and
the application states that a demand finds (DemandIsTaken). -/
theorem witness_DemandIsRecorded : bogie.RingLaw ∧ bogie.CaptureLaw ∧ (1 : Byte).getLsbD 0 = true ∧
    bogie.demand.emergency = false ∧
    idle.Accepts (.demand (head 40) 300 0 0) (head 40) .cab (fresh 40 .cab []) ∧ idle.RingLaw ∧
    idle.demand.app = .released ∧
    releasing.Accepts (.demand (head 40) 300 0 0) (head 40) .cab (fresh 40 .cab []) ∧ releasing.RingLaw ∧
    releasing.demand.app = .releasing ∧
    (let s := { isolated with demand := { isolated.demand with app := .applied } }
     s.Accepts (.demand (head 40) 0 0 0) (head 40) .cab (fresh 40 .cab []) ∧ s.RingLaw) :=
  ⟨bogie_ringLaw, bogie_captureLaw, by decide, rfl, accepted_of (by decide +kernel), ringLaw_of rfl rfl, rfl,
    accepted_of (by decide +kernel), ringLaw_of rfl rfl, rfl, accepted_of (by decide +kernel), ringLaw_of rfl rfl⟩

/-- R35, R40, R44: an emergency DEMAND in RELEASED is sent with the sequence of its DEMAND record, before the MODE record of
application 2. -/
theorem test_emergency_is_sent_with_its_demand_record :
    after (.demand (head 40) 300 0 1) (derated idle) (fun t => decide (
      ((t.hist.ring.drop 1).filter (fun r => decide (r.kind ≠ .restrict ∧ r.kind ≠ .blend))).map (fun r => (r.kind, r.data)) =
        [(.demand, [1, 44, 0, 0, 1, 1, 0, 0, 0, 0, 0, 0, 0, 0]), (.mode, [0, 0, 1, 1, 1, 0, 0, 0, 2, 0, 0, 0, 0, 0])]) &&
      (t.hist.current).any (fun i => decide (i.triggers.head? = some ⟨.emergency, 40, 1⟩ ∧
        (i.buffer[1]?).map (fun r => r.kind) = some .demand))) = true := by decide +kernel

theorem witness_AxleSpeedsAreTaken :
    bogie.Accepts (.axleSpeed (head 41) [⟨0, 65535, 0⟩, ⟨2, 0, 1⟩]) (head 41) .axleUnit (fresh 41 .axleUnit [0, 1, 2]) :=
  accepted_of (by decide +kernel)

/-- The slide state of the axle is free: one witness for each is the bogie with that record. -/
theorem witness_SamplesMoveTheSlideState (r : SlideRecord) :
    let s := { bogie with slide := { bogie.slide with axles := thirdAxle r } }
    s.Accepts (.axleSpeed (head 41) [⟨2, 90, 0⟩]) (head 41) .axleUnit (fresh 41 .axleUnit [0, 1, 2]) ∧
    s.banks.active = some tables ∧ s.demand.mode = .active ∧ (2 : Fin 3).val < tables.bogie.n ∧
    (2 : Byte).toNat = 3 * s.ident.position.val + (2 : Fin 3).val :=
  ⟨accepted_of rfl, rfl, rfl, by decide, rfl⟩

/-- The frame that makes own axle 2 slide in a unit like `wet`. -/
def slipping : Instr := .axleSpeed (head 41) [⟨0, 120, 0⟩, ⟨1, 119, 0⟩, ⟨2, 90, 0⟩]

/-- The dump of `working`, whose axle 2 slides since 3000. -/
def dumping : State := working.putAxle 2 { working.axle 2 with periodStart := 3000 }

/-- The unit of `wet` with another sequencer. -/
def wetWith (a : Air) : State := { wet with air := a }

/-- The laws of SamplesMoveTheSlideState, and the sequencers that its hand-on finds: NORMAL, HOLD and REAPPLY with budget
left, with none, exhausted, and with no pressure; DUMP while the axle slides on and when its sliding ends. Each slides, or
does not, after the frame. -/
theorem witness_SlidesAreHandedOn : wet.RingLaw ∧ wet.CaptureLaw ∧ wet.hist.slidingTrigger = true ∧
    wet.Accepts slipping (head 41) .axleUnit (fresh 41 .axleUnit [0, 1, 2]) ∧ (wet.axle 2).state = .suspect ∧
    (∀ a ∈ [wet.air, { wet.air with state := .hold, held := 100 }, { wet.air with state := .reapply, reapply := 100 },
        { wet.air with used := 2000 }, { wet.air with state := .hold, used := 2000 }, { wet.air with exhausted := true },
        { wet.air with pSet := 0 }],
      a.state ≠ .dump ∧ after slipping (wetWith a) (fun t => decide ((t.axle 2).state = .sliding)) = true) ∧
    dumping.air.state = .dump ∧
    after (.axleSpeed (head 41) [⟨2, 80, 0⟩]) dumping (fun t => decide ((t.axle 2).state = .sliding)) = true ∧
    after (.axleSpeed (head 41) [⟨2, 119, 0⟩]) dumping (fun t => decide ((t.axle 2).state = .recovering)) = true :=
  ⟨ringLaw_of rfl rfl, ⟨by decide +kernel, by decide +kernel, by decide +kernel, by decide +kernel, by decide +kernel,
    by decide +kernel, by decide +kernel, by decide +kernel⟩, rfl, accepted_of (by decide +kernel), rfl,
    by decide +kernel, rfl, by decide +kernel, by decide +kernel⟩

/-- R82, R83, R79: from HOLD and REAPPLY an entry to SLIDING dumps on the 1700 ms left of 2000; with none left it is
exhausted, entry 14 raised, and the pressure stands. -/
theorem test_sliding_dumps_on_what_is_left :
    let dumps := fun (t : State) => decide (t.air.state = .dump ∧ t.air.dumpTimer = some ⟨3000, 1700⟩ ∧
      t.air.holdTimer = none ∧ t.air.stepTimer = none ∧ t.blend.pressure.content = ⟨0, .dump, false⟩)
    after slipping (wetWith { wet.air with state := .hold, used := 300, held := 100, holdTimer := some ⟨2950, 100⟩ })
        dumps = true ∧
    after slipping (wetWith { wet.air with
          state := .reapply, used := 300, reapply := 100
          stepTimer := some ⟨2950, 100⟩ }) dumps = true ∧
    after slipping (wetWith { wet.air with used := 2000 }) (fun t => decide (t.air.state = .normal ∧
      t.air.exhausted = true ∧ (t.entry 13).condition = true ∧ t.blend.pressure.content.pressure = t.air.pSet)) = true := by
  decide +kernel

/-- R80, R85: with the end of sliding the dump of 80 ms passes to HOLD for 100 ms at the last measured pressure, and at 0
where the valve reports FAULT. -/
theorem test_end_of_sliding_holds_the_measured_pressure :
    let ends := fun (a : Air) => after (.axleSpeed (head 41) [⟨2, 119, 0⟩]) { dumping with air := a }
    ends { dumping.air with measured := 250 } (fun t => decide (t.air.state = .hold ∧ t.air.held = 250 ∧
      t.air.used = 80 ∧ t.air.dumpTimer = none ∧ t.air.holdTimer = some ⟨3080, 100⟩ ∧
      t.blend.pressure.content = ⟨250, .hold, false⟩)) = true ∧
    ends { dumping.air with measured := 250, status := .fault } (fun t => decide (t.air.held = 0)) = true := by
  decide +kernel

theorem witness_GroundSpeedsAreTaken :
    bogie.Accepts (.groundSpeed (head 42) 2001 0) (head 42) .radar (fresh 42 .radar []) ∧
    bogie.Accepts (.groundSpeed (head 42) 2001 1) (head 42) .radar (fresh 42 .radar []) :=
  ⟨accepted_of (by decide +kernel), accepted_of (by decide +kernel)⟩

theorem witness_EffortReportsAreTaken :
    bogie.Accepts (.effortReport (head 43) 0 2001 2) (head 43) .converter (station bogie 43) :=
  accepted_of (by decide +kernel)

theorem witness_PressureReportsAreTaken :
    bogie.Accepts (.pressureReport (head 46) 0 20 0) (head 46) .valve (fresh 46 .valve [0]) ∧
    bogie.demand.mode = .active ∧ bogie.air.state = .normal ∧ bogie.banks.active = some tables ∧
    releasing.Accepts (.pressureReport (head 46) 0 20 0) (head 46) .valve (fresh 46 .valve [0]) ∧
    releasing.demand.app = .releasing ∧ min (20 : BitVec 16).toNat 1000 ≤ tables.supervision.releaseThreshold ∧
    (∀ i : Fin 3, (releasing.out i).content.effort = 0) ∧
    (let s := { bogie with cls := { bogie.cls with stations := [fresh 46 .valve [1]] } }
     s.Accepts (.pressureReport (head 46) 1 20 0) (head 46) .valve (fresh 46 .valve [1])) :=
  ⟨accepted_of (by decide +kernel), rfl, rfl, rfl, accepted_of (by decide +kernel), rfl, by decide, by decide +kernel,
    accepted_of (by decide +kernel)⟩

/-! ### Witnesses: completions and expiries -/

/-- A port at the end of a transmission, its queues given. -/
def ending (cs : List Command) (qs : List Queued) (k : Nat) : State :=
  bogie.putPort .a { Port.reset with command := cs, forward := qs, fairness := k, tx := some ⟨Frame.sealed 1 2 3 4 [], 0⟩ }

theorem witness_CompletedTransmissionsSelectTheNextFrame :
    (bogie.port .a).tx = none ∧ ((ending [] [] 0).port .a).tx ≠ none ∧
    ((ending [⟨0, ⟨1, 2, []⟩⟩] [.originated ⟨1, 2, []⟩] 3).port .a).fairness < 4 ∧
    4 ≤ ((ending [⟨0, ⟨1, 2, []⟩⟩] [.forwarded (Frame.sealed 1 2 3 4 [])] 4).port .a).fairness ∧
    (((ending [] [] 0).putPort .b { Port.reset with tx := some ⟨Frame.sealed 1 2 3 4 [], 9⟩ }).port
      (otherPort .a)).tx ≠ none := by decide +kernel

/-- A completed transmission on the notice side, whose queue falls below its threshold, with an INCIDENT notice waiting at
the head (CompletedTransmissionsSelectTheNextFrame). -/
theorem witness_NoticesAreOffered :
    let s := (ending [] [.originated ⟨1, 2, []⟩] 0).withMgmt
      { bogie.mgmt with noticeAddress := 9, notices := [⟨.incident, 0, 1, 5⟩] }
    (s.port .a).forward = [.originated ⟨1, 2, []⟩] ∧ (s.port .a).command = [] ∧ (s.port .a).tx ≠ none ∧
      s.mgmt.notices = [⟨.incident, 0, 1, 5⟩] ∧ s.mgmt.noticeSide = .a ∧ s.work = Work.clear ∧
      ([] : List Queued).length < (s.port .a).threshold := by decide +kernel

theorem witness_ConditionTimersRaiseTheirConditions :
    bogie.RingLaw ∧ (bogie.port .b).silenceTimer = none ∧
    ((bogie.putPort .b { Port.reset with silenceTimer := some ⟨0, 500⟩ }).port .b).silenceTimer ≠ none ∧
    ({ bogie with slide := { bogie.slide with refTimer := some ⟨960, 500⟩ } } : State).slide.refTimer ≠ none ∧
    ({ bogie with air := { bogie.air with mismatchTimer := some ⟨960, 500⟩ } } : State).air.mismatchTimer ≠ none ∧
    (let s := (bogie.putPort .b { Port.reset with silenceTimer := some ⟨0, 500⟩ }).withMgmt
       { bogie.mgmt with noticeAddress := 9 }
     s.work = Work.clear ∧ s.mgmt.notices = [] ∧ s.mgmt.enables.restriction = true ∧ (s.entry 15).enable = true ∧
       (s.entry 15).latched = false ∧ (s.port s.mgmt.noticeSide).forward.length < (s.port s.mgmt.noticeSide).threshold ∧
       after (.silenceTimerExpiry .b) s (fun t => decide ((t.entry 15).pending ≠ (s.entry 15).pending)) = true) :=
  ⟨bogie_ringLaw, by decide +kernel⟩

/-- R185, R186: the raise of entry 16 by port B's silence is sent as a NOTICE frame at once: kind RESTRICTION, subject 16,
value 1, the time 1000. -/
theorem test_silence_notice_is_sent :
    let s := (bogie.putPort .b { Port.reset with silenceTimer := some ⟨0, 500⟩ }).withMgmt
      { bogie.mgmt with noticeAddress := 9 }
    after (.silenceTimerExpiry .b) s (fun t => decide (t.mgmt.notices = [] ∧
      (t.port .a).tx.map (fun x => (x.frame.kind, x.frame.dest, x.frame.payload)) =
        some (kindNotice, 9, [0, 16, 0, 0, 0, 1, 0, 0, 3, 232]))) = true := by decide +kernel

theorem witness_StationTimersAgeTheEntry :
    (let e := { fresh 40 .cab [] with freshTimer := some ⟨900, 100⟩, concealTimer := some ⟨900, 300⟩ }
     let s := bogie.mapStation 40 (fun _ => e)
     s.station 40 = some e ∧ e.freshTimer ≠ none ∧ e.state = .fresh ∧ e.concealLimit ≠ 0) ∧
    (let e := { fresh 43 .converter [0] with concealLimit := 0, freshTimer := some ⟨900, 100⟩ }
     let s := bogie.mapStation 43 (fun _ => e)
     s.station 43 = some e ∧ e.freshTimer ≠ none ∧ e.state = .fresh ∧ e.role ≠ .cab) ∧
    (let e := { fresh 40 .cab [] with state := .late, concealTimer := some ⟨900, 300⟩ }
     let s := bogie.mapStation 40 (fun _ => e)
     s.station 40 = some e ∧ e.concealTimer ≠ none ∧ e.state = .late) := by decide +kernel

theorem witness_AxleTimersAgeTheSample :
    (let s := bogie.putSample 2 ⟨.fresh, 95, 0, some ⟨900, 100⟩, none⟩
     (s.sample 2).freshTimer ≠ none ∧ (s.sample 2).state = .fresh ∧ (s.sample 2).concealTimer = none ∧
        s.demand.mode = .active ∧ 2 < s.n ∧ (s.axle 2).state ≠ .isolated ∧ (s.axle 2).state ≠ .unsensed) ∧
    (let s := bogie.putSample 11 ⟨.late, 95, 0, none, some ⟨900, 300⟩⟩
     (s.sample 11).concealTimer ≠ none ∧ (s.sample 11).state = .late) := by decide +kernel

theorem dumping_ringLaw : dumping.RingLaw where
  size := by decide +kernel
  data := by decide +kernel
  runs j r h := by
    obtain ⟨k, rfl⟩ := List.getElem?_eq_some_iff.mp h
    exact (by decide +kernel : ∀ i (q : i < dumping.hist.ring.length),
      dumping.hist.ring[i].seq = dumping.hist.nextSeq - BitVec.ofNat 32 (dumping.hist.ring.length - i)) j k

/-- The dump that goes on is left when the last sliding axle is lost, or isolated (AxleTimersAgeTheSample,
AllowancesIsolateTheAxle). -/
theorem witness_LostAxlesAreHandedOn :
    (let s := dumping.putSample 2 ⟨.fresh, 95, 0, some ⟨3000, 80⟩, none⟩
     s.RingLaw ∧ s.banks.active = some tables ∧ (s.sample 2).freshTimer ≠ none ∧ (s.sample 2).state = .fresh ∧
       (s.axle 2).state = .sliding ∧ s.air.state = .dump ∧
       after (.axleFreshnessExpiry 2) s (fun t => decide (t.air.state = .hold ∧ t.air.held = 0 ∧ t.air.used = 80)) = true) ∧
    dumping.RingLaw ∧ (dumping.axle 2).allowance ≠ none ∧ dumping.demand.mode = .active ∧
    after (.allowanceTimerExpiry 2) dumping (fun t => decide (t.air.state = .hold ∧ (t.axle 2).state = .isolated)) =
      true := by
  exact ⟨⟨⟨dumping_ringLaw.size, dumping_ringLaw.data, dumping_ringLaw.runs⟩, by decide +kernel⟩, dumping_ringLaw,
    by decide +kernel⟩

theorem witness_ReleaseTimesOut : releasing.demand.releaseTimer ≠ none ∧ releasing.demand.app = .releasing ∧
    releasing.air.state = .normal ∧ releasing.banks.pendingAdoption = false ∧ bogie.demand.releaseTimer = none ∧
    ({ releasing with banks := { releasing.banks with pendingAdoption := true } } : State).banks.pendingAdoption =
      true := by decide +kernel

theorem witness_AllowancesIsolateTheAxle :
    (let s := bogie.putAxle 2 { SlideRecord.reset with state := .sliding, factor := 400, allowance := some ⟨0, 3000⟩ }
     (s.axle 2).allowance ≠ none ∧ (s.axle 2).state = .sliding) ∧ (bogie.axle 2).allowance = none := by decide +kernel

theorem witness_SequencerTimersMoveTheSequencer :
    bogie.air.dumpTimer = none ∧ held.air.dumpTimer ≠ none ∧ held.air.state = .dump ∧
    (let a := { bogie.air with state := AirState.hold, holdTimer := some ⟨900, 100⟩, held := 100, pSet := 394 }
     a.holdTimer ≠ none ∧ a.state = .hold ∧ a.held < a.pSet ∧ a.pSet ≤ ({ a with held := 394 } : Air).held) ∧
    (let a := { bogie.air with state := AirState.reapply, stepTimer := some ⟨900, 100⟩, reapply := 344, pSet := 394 }
     let s := { bogie with air := a }
     a.stepTimer ≠ none ∧ a.state = .reapply ∧ a.pSet ≤ min (a.reapply + s.reapplyStep) 1000 ∧
        min (343 + s.reapplyStep) 1000 < a.pSet) := by decide +kernel

/-- A test of a steady state. -/
theorem steady_of {s : State} (a : s.work = Work.clear) (b : (decide (s.restrict.computeGov .electric =
    s.restrict.govElectric ∧ s.restrict.computeGov .air = s.restrict.govAir ∧ (s.entry 13).path = .report ∧
    (s.entry 16).path = .report ∧ (s.entry 18).path = .report)) = true) : s.Steady := by
  obtain ⟨p, q, r, u, v⟩ := of_decide_eq_true b
  exact ⟨a, p, q, r, u, v⟩

theorem witness_HandoverEndsTheHold : bogie.blend.handover = none ∧ held.blend.handover ≠ none ∧
    held.demand.mode = .active ∧ held.banks.active = some tables ∧ held.Steady ∧ held.converterOf 0 ≠ none ∧
    (held.out 0).lastSent = none ∧ held.valve ≠ none :=
  ⟨rfl, by decide +kernel, rfl, rfl, steady_of rfl (by decide +kernel), by decide +kernel⟩

theorem witness_RefreshOffersTheOutputAgain :
    let s := (bogie.putOut 2 { bogie.out 2 with refresh := some ⟨900, 100⟩ })
    let p := { bogie with blend := { bogie.blend with
      pressure := { bogie.blend.pressure with refresh := some ⟨900, 100⟩ } } }
    (s.out 2).refresh ≠ none ∧ s.demand.mode = .active ∧ s.banks.active = some tables ∧
      s.converterOf 2 = some (station s 45) ∧ s.Steady ∧ bogie.refreshRuns 2 = false ∧
      p.blend.pressure.refresh ≠ none ∧ p.valve = some (fresh 46 .valve [0]) ∧ p.Steady :=
  ⟨by decide +kernel, rfl, rfl, by decide +kernel, steady_of rfl (by decide +kernel), by decide +kernel,
    by decide +kernel, by decide +kernel, steady_of rfl (by decide +kernel)⟩

/-! ### Witnesses: the store -/

theorem witness_HeaderWritesAndErasesReachTheStore :
    (let s := committing .committing (incident none true two false) [opOf .claim, opOf .guard] none
     (s.slot 3).ops = opOf .claim :: [opOf .guard] ∧ (opOf .claim).kind ∈ [HeaderOpKind.claim] ∧
        s.hist.current = some (incident none true two false) ∧ s.hist.capture = .committing ∧
        (incident none true two false).slot = 3 ∧ (incident none true two false).claimDone = false ∧
        (incident none true two false).reused = true) ∧
    (incident none false [] false).reused = false ∧ (incident none false [] false).buffer = [] ∧
    (incident none false two false).buffer ≠ [] ∧
    (committing .post (incident none true two false) [opOf .claim] none).hist.capture = .post ∧
    (opOf .eraseEnd).kind ∈ [HeaderOpKind.eraseBegin, HeaderOpKind.eraseEnd] ∧
    (opOf .commit).kind ∉ [HeaderOpKind.guard] ∧
    (let s := committing .post (incident none true two false) [opOf .guard, opOf .eraseBegin] none
     (s.slot 3).ops = opOf .guard :: [opOf .eraseBegin] ∧ (s.slot 3).erase = none) ∧
    (let s := idle.putSlot 15 (slotOfHeader { complete 7 3 false with state := .erasing } [] (some 0))
     (s.slot 15).erase ≠ none) ∧ (idle.slot 15).erase = none := by decide +kernel

theorem witness_CommitStagesFollowOneAnother :
    (let s := committing .committing (incident (some (.erase 0)) true two true) [] none
     s.hist.current = some (incident (some (.erase 0)) true two true) ∧ s.hist.capture = .committing) ∧
    (let i := incident (some (.cell 1 0)) true two true
     i.op = some (.cell (1 : Fin 384).val 0) ∧ i.buffer[(1 : Fin 384).val]? = some { Record.firstMode with seq := 1 } ∧
        i.buffer.length ≤ (1 : Fin 384).val + 1) ∧
    (incident (some (.cell 0 0)) true two true).buffer[0]? = some Record.firstMode ∧
    (incident none true two true).op = none ∧ (incident (some .header) true two true).op = some .header := by
  decide +kernel

theorem witness_CommittedHeadersEndTheCommit :
    (let s := committing .committing (incident (some .header) true two true) [opOf .commit] none
     s.hist.current = some (incident (some .header) true two true) ∧ (s.slot 3).ops = opOf .commit :: [] ∧
        (opOf .commit).kind = .commit ∧ (opOf .commit).content.number = (incident none true two true).number ∧
        (opOf .commit).content.state = .complete ∧ s.hist.scan = none ∧ s.work = Work.clear ∧ s.mgmt.notices = [] ∧
        (s.withMgmt { s.mgmt with noticeAddress := 9 }).mgmt.enables.incident = true ∧
        (s.port s.mgmt.noticeSide).forward.length < (s.port s.mgmt.noticeSide).threshold) ∧
    (idle.hist.current = none) ∧ (opOf .guard).kind ≠ .commit := by decide +kernel

theorem witness_ScanRepairsTheStore : idle.hist.scan = none ∧
    (scanning (.writeIncomplete 5)).hist.scan = some ⟨3, .writeIncomplete 5, 0⟩ ∧
    (scanning .erase).hist.scan = some ⟨3, .erase, 0⟩ ∧ (scanning .writeFree).hist.scan = some ⟨3, .writeFree, 0⟩ := by
  decide +kernel

theorem witness_PowerOnResetSetsEveryBlock : idle.erasing 0 = false ∧
    (idle.putSlot 0 (slotOfHeader (complete 7 3 false) [] (some 9))).erasing 0 = true := by decide +kernel

/-- The worked tables with a curve that starts above speed 0 and two axles. -/
def raised : Tables := { tables with
  curve := ⟨2, writeFrom (Vec.fill 16 ⟨0, 0⟩) 0 [⟨13, 700⟩, ⟨200, 450⟩]⟩, bogie := { tables.bogie with n := 2 } }

/-- Points below, at and between the curve's, an axle that claims a shortfall, one that lacks too little, one that slides,
one out of service and one that is not configured. -/
theorem witness_StagesOneToFiveAreFormed : bogie.banks.active = some tables ∧ bogie.demand.mode = .active ∧
    bogie.demand.lLast ≤ 1000 ∧ tables.bogie.fFull ≤ 8000 ∧ bogie.inService 0 = true ∧
    (bogie.putAxle 0 { SlideRecord.reset with state := .isolated }).inService 0 = false ∧
    ({ bogie.restrict with govElectric := 4 } : Restrict).action 4 = some 0 ∧
    2 ≤ tables.curve.count ∧ tables.curve.count ≤ 16 ∧
    (∀ j k : Fin 16, j < k → k.val < tables.curve.count →
      (tables.curve.points.get j).speed < (tables.curve.points.get k).speed) ∧
    (tables.curve.points.get 1).speed ≤ bogie.slide.vref ∧ bogie.slide.vref < (tables.curve.points.get 2).speed ∧
    12 < (raised.curve.points.get 0).speed ∧ (raised.curve.points.get 1).speed ≤ 200 ∧ raised.bogie.n ≤ 2 ∧
    (let u := fun i => ((held.evaluate false).blend.work.axles.get i).allotment
     held.inService 0 = true ∧ (held.axle 0).state = .clear ∧ (held.converterOf 0).map (fun e => e.state) = some .fresh ∧
       (held.out 0).achieved + tables.bogie.tShort < u 0 ∧ u 1 ≤ (held.out 1).achieved + tables.bogie.tShort) ∧
    (held.axle 2).state = .sliding := by decide +kernel

/-- The law of a clear axle's record, a premise of StagesOneToFiveAreFormed. -/
theorem witness_clear_record : (held.axle 0).Law ∧ (held.axle 0).state = .clear := ⟨law_of (by decide +kernel), rfl⟩

/-- Every state of the sequencer, a setpoint of 0 and one at or below the reapply level, an emergency and a cap. -/
theorem witness_SetpointAndOutputAreFormed : bogie.banks.active = some tables ∧ bogie.demand.mode = .active ∧
    (let at0 := fun (a : AirState) (level : Nat) => { bogie with
        demand := { bogie.demand with lLast := level }, air := { bogie.air with state := a, reapply := 100 } }
     ((at0 .dump 0).evaluate false).blend.work.pSet = 0 ∧ (at0 .reapply 50).demand.mode = .active ∧
       0 < ((at0 .reapply 50).evaluate false).blend.work.pSet ∧
       ((at0 .reapply 50).evaluate false).blend.work.pSet ≤ 100 ∧
       100 < ((at0 .reapply 750).evaluate false).blend.work.pSet) ∧
    (let s := bogie.withDemand { bogie.demand with emergency := true }
     s.banks.active = some tables ∧ s.demand.mode = .active ∧ s.demand.emergency = true) ∧
    bogie.demand.emergency = false ∧ bogie.restrict.govAir = 0 ∧ capped.restrict.govAir = (4 : Fin 20).val + 1 ∧
    capped.banks.active = some tables ∧ bogie.demand.iLast ≤ 1000 ∧ held.air.state = .dump := by decide +kernel

theorem tables_ordered : tables.bogie.Ordered := ⟨by decide, by decide, by decide⟩

/-- Before the hold two axles fall below their efforts; in it the timer runs; the outputs are not yet sent, or sent. -/
theorem witness_EvaluationsOfferTheChangedOutputs : bogie.banks.active = some tables ∧ bogie.demand.mode = .active ∧
    held.banks.active = some tables ∧ held.demand.mode = .active ∧ held.blend.handover ≠ none ∧
    held.Holds (held.evaluate false).blend.work 0 ∧ (held.out 0).lastSent = none ∧ held.converterOf 0 ≠ none ∧
    working.banks.active = some tables ∧ working.demand.mode = .active ∧
    (working.out 0).lastSent = some ((working.evaluate false).out 0).content :=
  ⟨rfl, rfl, rfl, rfl, by decide +kernel,
    ⟨by decide +kernel, .inl (by decide +kernel), by decide +kernel, by decide +kernel, by decide +kernel,
      .inr (by decide +kernel)⟩, by decide +kernel⟩

/-- R111: an evaluation whose outputs are sent already offers none again. -/
theorem test_unchanged_outputs_are_not_offered :
    let t := working.evaluate false
    t.link = working.link ∧ (held.evaluate false).link.b.tx ≠ none ∧ (held.evaluate false).link.b.command.length = 3 := by
  decide +kernel

theorem witness_TheShareLawHolds : bogie.banks.active = some tables ∧ bogie.demand.mode = .active ∧
    1 ≤ tables.bogie.n ∧ tables.bogie.n ≤ 3 := by decide +kernel

/-- R166: an erase behind an unfinished PROTECT write is held until that write completes. -/
theorem test_erase_waits_for_the_protect_write :
    let s := (stored none).putSlot 0 (slotOfHeader (complete 7 3 false) [opOf .guard] none)
    after (.eraseIncident ask 0) s (fun t => decide ((t.slot 0).erase = none ∧ (t.slot 0).ops.length = 2) &&
      after (.protectHeaderWriteComplete 0) t (fun u => (u.slot 0).erase.isSome)) = true := by decide +kernel

/-- R75: an axle that slides since 600 ms on an allowance of 3000 keeps it under an adopted T_slide_max of 500. -/
theorem test_sliding_axle_keeps_its_allowance :
    let s := { bogie with
      banks := { bogie.banks with active := some { tables with
        supervision := { tables.supervision with tSlideMax := 500 } } }
      slide := { bogie.slide with axles := thirdAxle { SlideRecord.reset with
        state := .sliding, factor := 400, periodStart := 400, allowance := some ⟨400, 3000⟩ } } }
    after (.axleSpeed (head 41) [⟨2, 90, 0⟩]) s (fun t => decide ((t.axle 2).state = .sliding)) = true := by
  decide +kernel

/-- R177, R166: the reply to an UNPROTECT shows the claim that the fall of STORE_UNAVAILABLE brings in the same event,
with entry 19 inverted and every other slot protected. -/
theorem test_unprotect_reply_shows_the_claim :
    let s := allSlots.foldl (fun (s : State) k => s.putSlot k (slotOfHeader (complete 7 3 true) [] none)) idle
    let s := s.putEntry 18 { s.entry 18 with condition := true, invert := true, trigger := true }
    after (.unprotect ask 5) s (fun t => decide ((t.slot 5).header.state = .writing ∧
      (t.port .a).tx.map (fun x => x.frame.payload) =
        some (replyFrame ask 0x3D ⟨.done, (t.slot 5).header.bytes⟩).payload)) = true := by decide +kernel

/-- R121: at an adoption each port's silence is a hand-over of its own: the governing record of entry 15 lies before the
pending record of entry 16. -/
theorem test_adoption_hands_each_port_over_alone :
    let s := stagedAll releasing
    let s := { s with banks := { s.banks with pendingAdoption := true } }
    let s := (s.putEntry 14 { s.entry 14 with path := .electric }).putEntry 15 { s.entry 15 with path := .electric }
    after .releaseConfirmExpiry s (fun t => decide
      (((t.hist.ring.filter (fun r => decide (r.kind = .restrict))).take 4).map (fun r => (r.subject, r.data.take 1)) =
        [(15, [0]), (15, [1]), (16, [0]), (16, [1])])) = true := by decide +kernel

/-- A code outside the four edges names no edge. -/
theorem test_unlisted_notice_edge : NoticeEdge.ofCode 0 = some NoticeEdge.none ∧
    NoticeEdge.ofCode 4 = Option.none := by decide

end Sys2Proof.Tests
end

section
/-!
PROOFS. The blend computation, stages 1 to 6 (R97 to R102): the working values an evaluation leaves, the capability
curve, the work of one axle, and the sums over the configured axles. O57 and O58 are put together from these.
-/

namespace Sys2Proof.Machine

/-! ### The working values an evaluation leaves -/

theorem handStage8_blend (s : State) (o : AirState) : (s.handStage8 o).blend = s.blend := by
  unfold State.handStage8; split
  · rfl
  · exact held_blend (by simp)

theorem handPOut_blend (s : State) (n : Nat) : (s.handPOut n).blend = s.blend := by
  unfold State.handPOut; split <;> rfl

theorem offerCommand_blend (s : State) (p : PortId) (c : Command) : (s.offerCommand p c).blend = s.blend :=
  held_blend (offerCommand_held s p c)

theorem offerEffort_blend_work (s : State) (i : Fin 3) (e : Station) :
    (s.offerEffort i e).blend.work = s.blend.work := by
  rw [State.offerEffort, offerCommand_blend]; rfl

theorem offerPressure_blend_work (s : State) (e : Station) : (s.offerPressure e).blend.work = s.blend.work := by
  rw [State.offerPressure, offerCommand_blend]; rfl

theorem sendEffort_blend_work (s : State) (i : Fin 3) : (s.sendEffort i).blend.work = s.blend.work := by
  unfold State.sendEffort; split
  · split
    · rfl
    · exact offerEffort_blend_work _ _ _
  · rfl

theorem sendPressure_blend_work (s : State) : s.sendPressure.blend.work = s.blend.work := by
  unfold State.sendPressure; split
  · split
    · rfl
    · exact offerPressure_blend_work _ _
  · rfl

theorem sendOutputs_blend_work (s : State) : s.sendOutputs.blend.work = s.blend.work := by
  simp only [State.sendOutputs, sendPressure_blend_work, sendEffort_blend_work]

theorem recordBlend_blend (s : State) : s.recordBlend.blend = s.blend := held_blend (recordBlend_held s)

theorem evaluateOn_blend_work (s : State) (b : Tables) (noHold : Bool) :
    (s.evaluateOn b noHold).blend.work = s.blendWork b := by
  unfold State.evaluateOn
  dsimp only
  split
  · rw [recordBlend_blend, sendOutputs_blend_work, handPOut_blend, handStage8_blend]; rfl
  · rw [sendOutputs_blend_work, handPOut_blend, handStage8_blend]; rfl

/-- What follows stage 9 in an evaluation, the hand-ons, the offers and the record, leaves the working values. -/
theorem evaluate_blend_work {s : State} {b : Tables} (noHold : Bool) (bank : s.banks.active = some b)
    (mode : s.demand.mode = .active) : (s.evaluate noHold).blend.work = s.blendWork b := by
  have active : s.isActive = true := decide_eq_true mode
  simp only [State.evaluate, bank, active, if_true, evaluateOn_blend_work]

theorem blendWork_axle (s : State) (b : Tables) (i : Fin 3) : (s.blendWork b).axles.get i =
    s.axleWork b (s.blendWork b).c s.re (s.blendWork b).d i := by
  match i with
  | 0 => rfl
  | 1 => rfl
  | 2 => rfl

theorem blendWork_sumU (s : State) (b : Tables) : (s.blendWork b).sumU =
    ((s.blendWork b).axles.get 0).allotment + ((s.blendWork b).axles.get 1).allotment +
      ((s.blendWork b).axles.get 2).allotment := rfl

theorem blendWork_fAir (s : State) (b : Tables) : (s.blendWork b).fAir =
    (s.blendWork b).fDem - (s.blendWork b).sumU +
      (((s.blendWork b).axles.get 0).short + ((s.blendWork b).axles.get 1).short +
        ((s.blendWork b).axles.get 2).short) := rfl

theorem demandEffort_le {level fFull : Nat} (hl : level ≤ 1000) (hf : fFull ≤ 8000) :
    demandEffort level fFull ≤ 8000 := by
  have : level * fFull ≤ 1000 * 8000 := Nat.mul_le_mul hl hf
  unfold demandEffort
  omega

theorem level_le {d : Demand} (h : d.lLast ≤ 1000) : d.level ≤ 1000 := by
  unfold Demand.level
  cases d.hold
  case none => exact h
  case startHold => exact le_rfl
  case held => exact h
  case penalty => exact le_rfl

/-! ### Between two points of the curve -/

/-- The part of a rise that falls to a part of the way is at most the whole rise. -/
theorem partway_le {rise way whole : Nat} (h : way ≤ whole) : rise * way / whole ≤ rise :=
  Nat.div_le_of_le_mul (by rw [Nat.mul_comm whole]; exact Nat.mul_le_mul_left rise h)

theorem interpolate_within {p q : CurvePoint} {v : Nat} (hv : v ≤ q.speed) :
    min p.cap q.cap ≤ interpolate p q v ∧ interpolate p q v ≤ max p.cap q.cap := by
  have way : v - p.speed ≤ q.speed - p.speed := Nat.sub_le_sub_right hv _
  unfold interpolate
  split
  · have part := partway_le (rise := q.cap - p.cap) way
    generalize (q.cap - p.cap) * (v - p.speed) / (q.speed - p.speed) = climb at part ⊢
    omega
  · have part := partway_le (rise := p.cap - q.cap) way
    generalize (p.cap - q.cap) * (v - p.speed) / (q.speed - p.speed) = drop at part ⊢
    omega

theorem interpolate_at_start (p q : CurvePoint) : interpolate p q p.speed = p.cap := by
  simp [interpolate]

/-- The model's two cases, a rising and a falling segment, are one quotient rounded toward zero (R98). -/
theorem interpolate_eq_tdiv {p q : CurvePoint} {v : Nat} (hp : p.speed ≤ v) (hq : v ≤ q.speed) :
    (interpolate p q v : Int) =
      p.cap + Int.tdiv (((q.cap : Int) - p.cap) * ((v : Int) - p.speed)) ((q.speed : Int) - p.speed) := by
  have way : v - p.speed ≤ q.speed - p.speed := Nat.sub_le_sub_right hq _
  rw [← Nat.cast_sub hp, ← Nat.cast_sub (hp.trans hq)]
  unfold interpolate
  split
  · next rising =>
    rw [← Nat.cast_sub rising, ← Nat.cast_mul, ← Int.ofNat_tdiv, ← Nat.cast_add]
  · next falling =>
    have falls : q.cap ≤ p.cap := (Nat.lt_of_not_le falling).le
    have : (p.cap - q.cap) * (v - p.speed) / (q.speed - p.speed) ≤ p.cap := (partway_le way).trans (Nat.sub_le _ _)
    rw [← neg_sub (p.cap : Int), ← Nat.cast_sub falls, neg_mul, ← Nat.cast_mul, Int.neg_tdiv, ← Int.ofNat_tdiv,
      Nat.cast_sub this, sub_eq_add_neg]

/-! ### Along the points in use -/

theorem curveAt_below_first {v : Nat} {p : CurvePoint} {l : List CurvePoint} (h : v < p.speed) :
    curveAt v (p :: l) = p.cap := by
  cases l with
  | nil => rfl
  | cons q l => simp [curveAt, h]

theorem curveAt_segment {v : Nat} {p q : CurvePoint} {l : List CurvePoint} (hp : p.speed ≤ v) (hq : v < q.speed) :
    curveAt v (p :: q :: l) = interpolate p q v := by
  simp [curveAt, hp.not_gt, hq]

theorem curveAt_past {v : Nat} {p q : CurvePoint} {l : List CurvePoint} (h : p.speed < q.speed) (hq : q.speed ≤ v) :
    curveAt v (p :: q :: l) = curveAt v (q :: l) := by
  simp [curveAt, (h.trans_le hq).not_gt, hq.not_gt]

/-- Points in ascending order of speed. -/
abbrev Ascending (l : List CurvePoint) : Prop := l.Pairwise (fun p q => p.speed < q.speed)

/-- The points before one that the speed has reached play no part. -/
theorem curveAt_drop {v : Nat} : ∀ (j : Nat) (l : List CurvePoint) (h : j < l.length), Ascending l →
    l[j].speed ≤ v → curveAt v l = curveAt v (l.drop j)
  | 0, _, _, _, _ => rfl
  | j + 1, [_], h, _, _ => absurd h (by simp)
  | j + 1, p :: q :: l, h, asc, reached => by
    obtain ⟨first, rest⟩ := List.pairwise_cons.mp asc
    have hj : j < (q :: l).length := Nat.lt_of_succ_lt_succ h
    have second : q.speed ≤ v := by
      refine le_trans ?_ reached
      rcases List.mem_cons.mp (List.getElem_mem hj) with e | m
      · exact (congrArg CurvePoint.speed e).ge
      · exact ((List.pairwise_cons.mp rest).1 _ m).le
    rw [curveAt_past (first q (List.mem_cons_self ..)) second]
    exact curveAt_drop j (q :: l) hj rest reached

theorem curveAt_between {v j : Nat} {l : List CurvePoint} (h : j + 1 < l.length) (asc : Ascending l)
    (hp : l[j].speed ≤ v) (hq : v < l[j + 1].speed) : curveAt v l = interpolate l[j] l[j + 1] v := by
  rw [curveAt_drop j l (Nat.lt_of_succ_lt h) asc hp, List.drop_eq_getElem_cons (Nat.lt_of_succ_lt h),
    List.drop_eq_getElem_cons h, curveAt_segment hp hq]

theorem curveAt_from_last {v j : Nat} {l : List CurvePoint} (h : j + 1 = l.length) (asc : Ascending l)
    (reached : l[j].speed ≤ v) : curveAt v l = l[j].cap := by
  rw [curveAt_drop j l (h ▸ Nat.lt_succ_self j) asc reached, List.drop_eq_getElem_cons (h ▸ Nat.lt_succ_self j),
    List.drop_eq_nil_of_le h.ge]
  rfl

theorem curveAt_at_point {j : Nat} {l : List CurvePoint} (h : j < l.length) (asc : Ascending l) :
    curveAt l[j].speed l = l[j].cap := by
  rcases Nat.lt_or_eq_of_le (Nat.succ_le_of_lt h) with inner | last
  · rw [curveAt_between inner asc le_rfl (List.pairwise_iff_getElem.mp asc j (j + 1) h inner j.lt_succ_self),
      interpolate_at_start]
  · exact curveAt_from_last last asc le_rfl

theorem curveAt_le {v most : Nat} : ∀ {l : List CurvePoint}, (∀ p ∈ l, p.cap ≤ most) → curveAt v l ≤ most
  | [], _ => Nat.zero_le _
  | [p], caps => caps p (List.mem_cons_self ..)
  | p :: q :: l, caps => by
    have hp := caps p (List.mem_cons_self ..)
    have tail : ∀ x ∈ q :: l, x.cap ≤ most := fun x m => caps x (List.mem_cons_of_mem _ m)
    unfold curveAt
    split
    · exact hp
    · split
      · next hq => exact (interpolate_within hq.le).2.trans (max_le hp (tail q (List.mem_cons_self ..)))
      · exact curveAt_le tail

/-! ### The capability curve (R98) -/

/-- The points in use of a curve. -/
def Curve.used (c : Curve) : List CurvePoint := c.points.toList.take c.count

theorem capability_eq (c : Curve) (v : Nat) : c.capability v = curveAt v c.used := rfl

section
variable {c : Curve} (most : c.count ≤ 16)
include most

theorem used_length : c.used.length = c.count := by
  rw [Curve.used, List.length_take, c.points.len, min_eq_left most]

theorem used_lt_length {k : Fin 16} (h : k.val < c.count) : k.val < c.used.length := by rwa [used_length most]

theorem used_getElem {k : Nat} (h : k < c.used.length) :
    c.used[k] = c.points.get ⟨k, h.trans_le ((used_length most).le.trans most)⟩ := by
  simp [Curve.used, Vec.get_eq]

theorem used_ascending
    (asc : ∀ j k : Fin 16, j < k → k.val < c.count → (c.points.get j).speed < (c.points.get k).speed) :
    Ascending c.used := by
  rw [Ascending, List.pairwise_iff_getElem]
  intro i j hi hj lt
  rw [used_getElem most hi, used_getElem most hj]
  exact asc _ _ lt (by rwa [used_length most] at hj)

theorem capability_below_first {v : Nat} (any : 2 ≤ c.count) (h : v < (c.points.get 0).speed) :
    c.capability v = (c.points.get 0).cap := by
  have ne : 0 < c.used.length := by rw [used_length most]; omega
  have head : c.used = c.points.get 0 :: c.used.drop 1 := by
    rw [← List.drop_zero (l := c.used), List.drop_eq_getElem_cons ne, used_getElem most ne]; rfl
  rw [capability_eq, head, curveAt_below_first h]

theorem capability_le {v cap : Nat} (caps : ∀ k : Fin 16, k.val < c.count → (c.points.get k).cap ≤ cap) :
    c.capability v ≤ cap := by
  refine curveAt_le (l := c.used) fun p m => ?_
  obtain ⟨k, h, rfl⟩ := List.mem_iff_getElem.mp m
  rw [used_getElem most h]
  exact caps _ (by rwa [used_length most] at h)

variable (asc : ∀ j k : Fin 16, j < k → k.val < c.count → (c.points.get j).speed < (c.points.get k).speed)
include asc

theorem capability_from_last {v : Nat} {k : Fin 16} (last : k.val + 1 = c.count)
    (h : (c.points.get k).speed ≤ v) : c.capability v = (c.points.get k).cap := by
  have hk := used_lt_length most (k := k) (by omega)
  have := curveAt_from_last (v := v) (last.trans (used_length most).symm) (used_ascending most asc)
    (by rwa [used_getElem most hk])
  rwa [used_getElem most hk] at this

theorem capability_between {v : Nat} {j k : Fin 16} (next : k.val = j.val + 1) (hk : k.val < c.count)
    (hj : (c.points.get j).speed ≤ v) (hv : v < (c.points.get k).speed) :
    c.capability v = interpolate (c.points.get j) (c.points.get k) v := by
  obtain ⟨k, lt⟩ := k
  subst next
  have h := used_lt_length most (k := ⟨_, lt⟩) hk
  have := curveAt_between (v := v) h (used_ascending most asc)
    (by rwa [used_getElem most (Nat.lt_of_succ_lt h)]) (by rwa [used_getElem most h])
  rwa [used_getElem most h, used_getElem most (Nat.lt_of_succ_lt h)] at this

theorem capability_at_point {k : Fin 16} (hk : k.val < c.count) :
    c.capability (c.points.get k).speed = (c.points.get k).cap := by
  have h := used_lt_length most hk
  have := curveAt_at_point h (used_ascending most asc)
  rwa [used_getElem most h] at this

end

/-! ### The work of one axle (R95, R99 to R101) -/

theorem configured_iff {s : State} {b : Tables} (bank : s.banks.active = some b) (i : Fin 3) :
    s.configured i = true ↔ i.val < b.bogie.n := by
  simp [State.configured, State.n, bank]

theorem serves_iff (e : Station) : e.serves = true ↔
    (e.state = .fresh ∨ e.state = .late) ∧ (e.lastStatus = .ok ∨ e.lastStatus = .derated) := by
  have status : e.lastStatus ≠ .fault ↔ e.lastStatus = .ok ∨ e.lastStatus = .derated := by
    cases e.lastStatus <;> decide
  rw [Station.serves, Bool.and_eq_true, decide_eq_true_iff, live_iff, status, Station.Lost, not_and_or, not_not,
    not_not]

theorem inService_iff {s : State} {b : Tables} (bank : s.banks.active = some b) (i : Fin 3) :
    s.inService i = true ↔ i.val < b.bogie.n ∧ (s.axle i).state ≠ .isolated ∧ (s.axle i).state ≠ .unsensed ∧
      ∃ e, s.converterOf i = some e ∧ (e.state = .fresh ∨ e.state = .late) ∧
        (e.lastStatus = .ok ∨ e.lastStatus = .derated) := by
  rw [State.inService, Bool.and_eq_true, Bool.and_eq_true, configured_iff bank, decide_eq_true_iff, and_assoc,
    and_assoc]
  refine and_congr_right fun _ => and_congr_right fun _ => and_congr_right fun _ => ?_
  cases s.converterOf i with
  | none => simp
  | some e => simp [serves_iff]

theorem steady_iff (x : SlideState) : x.steady = true ↔ x = .clear ∨ x = .suspect := by cases x <;> decide

theorem freshConverter_iff (s : State) (i : Fin 3) :
    s.freshConverter i = true ↔ ∃ e, s.converterOf i = some e ∧ e.state = .fresh := by
  unfold State.freshConverter
  cases s.converterOf i <;> simp

/-- An axle may claim a shortfall: in service, CLEAR or SUSPECT, with a FRESH converter (R101). -/
def State.Claims (s : State) (i : Fin 3) : Prop :=
  s.inService i = true ∧ ((s.axle i).state = .clear ∨ (s.axle i).state = .suspect) ∧
    ∃ e, s.converterOf i = some e ∧ e.state = .fresh

theorem claims_iff (s : State) (i : Fin 3) :
    (s.inService i && (s.axle i).state.steady && s.freshConverter i) = true ↔ s.Claims i := by
  rw [Bool.and_eq_true, Bool.and_eq_true, steady_iff, freshConverter_iff, and_assoc]; rfl

theorem re_of_action_zero {s : State} (h : s.restrict.action s.restrict.govElectric = some 0) : s.re = 0 := by
  simp [State.re, h]

theorem shortfall_le (u achieved tShort : Nat) : shortfall u achieved tShort ≤ u := by
  unfold shortfall; split <;> omega

section
variable (s : State) (b : Tables) (c re d : Nat) (i : Fin 3)

theorem axleWork_target : (s.axleWork b c re d i).target =
    if s.demand.emergency then 0 else (s.axleWork b c re d i).allotment * (s.axle i).factor / 1000 := rfl

theorem axleWork_allotment_le : (s.axleWork b c re d i).allotment ≤ d := by
  change (if s.configured i then min _ d else 0) ≤ d
  split
  · exact min_le_right _ _
  · exact Nat.zero_le _

theorem axleWork_capability_zero (h : re = 0) : (s.axleWork b c re d i).capability = 0 := by
  change (if s.inService i then c * re / 1000 else 0) = 0
  simp [h]

variable {s b c re d i}

theorem axleWork_capability_in (h : s.inService i = true) : (s.axleWork b c re d i).capability = c * re / 1000 :=
  if_pos h

theorem axleWork_capability_out (h : s.inService i = false) : (s.axleWork b c re d i).capability = 0 :=
  if_neg (by simp [h])

theorem axleWork_allotment_in (h : s.configured i = true) :
    (s.axleWork b c re d i).allotment = min (s.axleWork b c re d i).capability d := if_pos h

theorem axleWork_allotment_out (h : s.inService i = false) : (s.axleWork b c re d i).allotment = 0 := by
  change (if s.configured i then min (s.axleWork b c re d i).capability d else 0) = 0
  simp [axleWork_capability_out h]

theorem axleWork_target_out (h : s.inService i = false) : (s.axleWork b c re d i).target = 0 := by
  simp [axleWork_target, axleWork_allotment_out h]

/-- A slide factor of 1000 leaves the allotment whole (R61, R100). -/
theorem axleWork_target_full (factor : (s.axle i).factor = 1000) (h : s.demand.emergency = false) :
    (s.axleWork b c re d i).target = (s.axleWork b c re d i).allotment := by
  simp [axleWork_target, h, factor]

theorem axleWork_short_of_claims (h : s.Claims i) : (s.axleWork b c re d i).short =
    shortfall (s.axleWork b c re d i).allotment (s.out i).achieved b.bogie.tShort := if_pos ((claims_iff s i).mpr h)

theorem axleWork_short_of_not_claims (h : ¬s.Claims i) : (s.axleWork b c re d i).short = 0 :=
  if_neg (mt (claims_iff s i).mp h)

theorem axleWork_short_lacking (h : s.Claims i)
    (lacks : (s.out i).achieved + b.bogie.tShort < (s.axleWork b c re d i).allotment) :
    (s.axleWork b c re d i).short = (s.axleWork b c re d i).allotment - (s.out i).achieved := by
  rw [axleWork_short_of_claims h, shortfall, if_pos lacks]

theorem axleWork_short_zero
    (h : ¬s.Claims i ∨ (s.axleWork b c re d i).allotment ≤ (s.out i).achieved + b.bogie.tShort) :
    (s.axleWork b c re d i).short = 0 := by
  by_cases claims : s.Claims i
  · rw [axleWork_short_of_claims claims, shortfall, if_neg (h.resolve_left (not_not.mpr claims)).not_gt]
  · exact axleWork_short_of_not_claims claims

theorem axleWork_short_out (h : s.inService i = false) : (s.axleWork b c re d i).short = 0 :=
  axleWork_short_of_not_claims fun ⟨live, _⟩ => absurd live (by simp [h])

variable (s b c re d i)

theorem axleWork_short_le : (s.axleWork b c re d i).short ≤ (s.axleWork b c re d i).allotment := by
  by_cases h : s.Claims i
  · rw [axleWork_short_of_claims h]; exact shortfall_le _ _ _
  · rw [axleWork_short_of_not_claims h]; exact Nat.zero_le _

end

/-- An axle out of service, by its slide state or by not being configured. -/
theorem not_inService {s : State} {b : Tables} (bank : s.banks.active = some b) {i : Fin 3}
    (h : b.bogie.n ≤ i.val ∨ (s.axle i).state = .isolated ∨ (s.axle i).state = .unsensed) :
    s.inService i = false := by
  rw [Bool.eq_false_iff]
  intro live
  obtain ⟨lt, iso, uns, -⟩ := (inService_iff bank i).mp live
  rcases h with out | isolated | unsensed
  · exact absurd lt out.not_gt
  · exact iso isolated
  · exact uns unsensed

/-! ### Sums over the configured axles (R100, R102) -/

/-- The sum of a value over the first n of the three axles. -/
def totalOf (n : Nat) (f : Fin 3 → Nat) : Nat :=
  (if 0 < n then f 0 else 0) + (if 1 < n then f 1 else 0) + (if 2 < n then f 2 else 0)

theorem totalOf_eq_sum {n : Nat} {f : Fin 3 → Nat} (beyond : ∀ i : Fin 3, n ≤ i.val → f i = 0) :
    totalOf n f = f 0 + f 1 + f 2 := by
  have h : ∀ i : Fin 3, (if i.val < n then f i else 0) = f i := fun i => by
    split
    · rfl
    · next out => exact (beyond i (Nat.le_of_not_lt out)).symm
  exact congrArg₂ (· + ·) (congrArg₂ (· + ·) (h 0) (h 1)) (h 2)

theorem totalOf_add (n : Nat) (f g : Fin 3 → Nat) : totalOf n (fun i => f i + g i) = totalOf n f + totalOf n g := by
  simp only [totalOf]
  split_ifs <;> omega

theorem totalOf_const {n : Nat} (h : n ≤ 3) (d : Nat) : totalOf n (fun _ => d) = n * d := by
  interval_cases n <;> simp [totalOf] <;> ring

theorem totalOf_le {n : Nat} {f g : Fin 3 → Nat} (h : ∀ i, f i ≤ g i) : totalOf n f ≤ totalOf n g := by
  refine Nat.add_le_add (Nat.add_le_add ?_ ?_) ?_ <;> split <;> simp [h]

section
variable {s : State} {b : Tables}

theorem blendWork_shares_le : b.bogie.n * (s.blendWork b).d ≤ (s.blendWork b).fDem := Nat.mul_div_le _ _

theorem blendWork_remainder_le (positive : 1 ≤ b.bogie.n) :
    (s.blendWork b).fDem - b.bogie.n * (s.blendWork b).d ≤ b.bogie.n - 1 := by
  have : (s.blendWork b).fDem % b.bogie.n < b.bogie.n := Nat.mod_lt _ positive
  have : b.bogie.n * (s.blendWork b).d + (s.blendWork b).fDem % b.bogie.n = (s.blendWork b).fDem :=
    Nat.div_add_mod _ _
  omega

theorem blendWork_allotment_le (i : Fin 3) : ((s.blendWork b).axles.get i).allotment ≤ (s.blendWork b).d := by
  rw [blendWork_axle]; exact axleWork_allotment_le ..

theorem blendWork_short_le (i : Fin 3) :
    ((s.blendWork b).axles.get i).short ≤ ((s.blendWork b).axles.get i).allotment := by
  rw [blendWork_axle]; exact axleWork_short_le ..

variable (bank : s.banks.active = some b)
include bank

theorem blendWork_beyond {i : Fin 3} (h : b.bogie.n ≤ i.val) :
    ((s.blendWork b).axles.get i).allotment = 0 ∧ ((s.blendWork b).axles.get i).target = 0 ∧
      ((s.blendWork b).axles.get i).short = 0 := by
  have out := not_inService bank (.inl h)
  rw [blendWork_axle]
  exact ⟨axleWork_allotment_out out, axleWork_target_out out, axleWork_short_out out⟩

theorem blendWork_sumU_eq_total :
    (s.blendWork b).sumU = totalOf b.bogie.n (fun i => ((s.blendWork b).axles.get i).allotment) :=
  (totalOf_eq_sum fun _ h => (blendWork_beyond bank h).1).symm

theorem blendWork_fAir_eq_total : (s.blendWork b).fAir = (s.blendWork b).fDem - (s.blendWork b).sumU +
    totalOf b.bogie.n (fun i => ((s.blendWork b).axles.get i).short) := by
  rw [totalOf_eq_sum fun _ h => (blendWork_beyond bank h).2.2, blendWork_fAir]

/-- What the shares come to is what is allotted and what the allotments leave of them. -/
theorem blendWork_shares_split (most : b.bogie.n ≤ 3) : b.bogie.n * (s.blendWork b).d =
    totalOf b.bogie.n (fun i => (s.blendWork b).d - ((s.blendWork b).axles.get i).allotment) +
      (s.blendWork b).sumU := by
  rw [blendWork_sumU_eq_total bank, ← totalOf_add, ← totalOf_const most]
  exact congrArg _ (funext fun i => (Nat.sub_add_cancel (blendWork_allotment_le i)).symm)

theorem blendWork_sumU_le_shares (most : b.bogie.n ≤ 3) : (s.blendWork b).sumU ≤ b.bogie.n * (s.blendWork b).d := by
  rw [blendWork_shares_split bank most]; exact Nat.le_add_left _ _

theorem blendWork_shorts_le : totalOf b.bogie.n (fun i => ((s.blendWork b).axles.get i).short) ≤
    (s.blendWork b).sumU := by
  rw [blendWork_sumU_eq_total bank]; exact totalOf_le blendWork_short_le

end

/-! ### The obligations -/

/-- Settles O57, stage by stage. -/
theorem stagesOneToFiveAreFormed : Obligations.StagesOneToFiveAreFormed := by
  intro b noHold s bank mode
  rw [evaluate_blend_work noHold bank mode]
  intro w l p claims
  have axle : ∀ i, w.axles.get i = s.axleWork b w.c s.re w.d i := blendWork_axle s b
  have level : l = s.demand.level := by simp only [l, Demand.level]; cases s.demand.hold <;> rfl
  refine ⟨level ▸ rfl, fun hl hf => demandEffort_le (level_le hl) hf, fun _ _ => rfl, inService_iff bank,
    fun any most asc => ⟨capability_below_first most any, fun k => capability_from_last most asc, ?segment, ?point,
      capability_le most⟩,
    fun i => ⟨?live, ?dead⟩, ?restricted, rfl, rfl, ?shares, ?axle, fun i => blendWork_beyond bank⟩
  case segment =>
    intro j k next hk hj hv
    have value : w.c = interpolate (p j) (p k) s.slide.vref := capability_between most asc next hk hj hv
    rw [value]
    exact ⟨interpolate_eq_tdiv hj hv.le, interpolate_within hv.le⟩
  case point =>
    intro k hk reached
    exact (congrArg b.curve.capability reached).trans (capability_at_point most asc hk)
  case live => rw [axle]; exact axleWork_capability_in
  case dead => rw [axle]; exact axleWork_capability_out
  case restricted =>
    intro action i
    rw [axle]
    exact axleWork_capability_zero _ _ _ _ _ _ (re_of_action_zero action)
  case shares =>
    intro positive most
    have sum : w.sumU ≤ b.bogie.n * w.d := blendWork_sumU_le_shares bank most
    have shares : b.bogie.n * w.d ≤ w.fDem := blendWork_shares_le
    have air : w.fAir = w.fDem - w.sumU + _ := blendWork_fAir s b
    exact ⟨sum, shares, blendWork_remainder_le positive, by omega, air⟩
  case axle =>
    intro i configured
    rw [axle]
    exact ⟨axleWork_allotment_in ((configured_iff bank i).mpr configured),
      fun off => axleWork_allotment_out (not_inService bank (.inr off)), axleWork_target _ _ _ _ _ _,
      fun law still calm => axleWork_target_full (law.full still) calm,
      axleWork_short_lacking, axleWork_short_zero, axleWork_short_le _ _ _ _ _ _⟩

/-- Settles O58: the shares come to at most the demand, and each share is what its axle is allotted and what it
lacks. -/
theorem theShareLawHolds : Obligations.TheShareLawHolds := by
  intro b noHold s bank mode _ most
  rw [evaluate_blend_work noHold bank mode]
  intro w total sumShort
  have air : w.fAir = w.fDem - w.sumU + sumShort := blendWork_fAir_eq_total bank
  have split : b.bogie.n * w.d = total (fun i => w.d - (w.axles.get i).allotment) + w.sumU :=
    blendWork_shares_split bank most
  have shares : b.bogie.n * w.d ≤ w.fDem := blendWork_shares_le
  have shorts : sumShort ≤ w.sumU := blendWork_shorts_le bank
  exact ⟨blendWork_sumU_eq_total bank, by omega, by omega, by omega,
    fun i => ⟨blendWork_allotment_le i, blendWork_short_le i⟩, by omega⟩

end Sys2Proof.Machine
end
